-- ==== Sys2Proof/Word.lean ====
section
/-! DEFINITION. The word types of the block: the 32-bit instruction word and address (30_encoding R80,
20_memory R60), the byte of the external memory store (20_memory R61) and the 5-bit register number
(30_encoding R81). -/

namespace Sys2Proof

/-- A 32-bit instruction word, a 32-bit byte address, or a 32-bit register of the external executor. -/
abbrev Word := BitVec 32

/-- One byte of the external memory store. -/
abbrev Byte := BitVec 8

/-- A 5-bit register number, the width of the fields rs, rt and rd (30_encoding R81). The block compares
register numbers for equality and treats none of them specially (10_state R34). -/
abbrev RegNum := BitVec 5

end Sys2Proof
end

