-- ==== Sys2Proof/Syntax.lean ====
section
/-! DEFINITION. The syntax: one constructor of `Instr` per row of spec/opcode_table.json (30_encoding R92), and
the classification kinds (30_encoding R83). Each constructor carries EVERY field of its format in the order
of the word, the fields the block never reads included (30_encoding R82, R91), so that no bit of an
encoding is dropped. The field widths are in the types: every term of `Instr` has an encoding. -/

namespace Sys2Proof

/-- The instructions of the default table (30_encoding R92). -/
inductive Instr where
  /-- R167: the halt sentinel, a whole-word pattern without fields. -/
  | halt
  /-- R110: R format, fields rs, rt, rd, shamt. -/
  | sll (rs rt rd shamt : RegNum)
  /-- R111: R format, fields rs, rt, rd, shamt. -/
  | srl (rs rt rd shamt : RegNum)
  /-- R166: R format, fields rs, rt, rd, shamt. -/
  | jr (rs rt rd shamt : RegNum)
  /-- R112: R format, fields rs, rt, rd, shamt. -/
  | add (rs rt rd shamt : RegNum)
  /-- R113: R format, fields rs, rt, rd, shamt. -/
  | addu (rs rt rd shamt : RegNum)
  /-- R114: R format, fields rs, rt, rd, shamt. -/
  | sub (rs rt rd shamt : RegNum)
  /-- R115: R format, fields rs, rt, rd, shamt. -/
  | subu (rs rt rd shamt : RegNum)
  /-- R116: R format, fields rs, rt, rd, shamt. -/
  | and (rs rt rd shamt : RegNum)
  /-- R117: R format, fields rs, rt, rd, shamt. -/
  | or (rs rt rd shamt : RegNum)
  /-- R118: R format, fields rs, rt, rd, shamt. -/
  | nor (rs rt rd shamt : RegNum)
  /-- R119: R format, fields rs, rt, rd, shamt. -/
  | slt (rs rt rd shamt : RegNum)
  /-- R120: R format, fields rs, rt, rd, shamt. -/
  | sltu (rs rt rd shamt : RegNum)
  /-- R164: J format, field target. -/
  | j (target : BitVec 26)
  /-- R165: J format, field target. -/
  | jal (target : BitVec 26)
  /-- R160: I format, fields rs, rt, imm. -/
  | beq (rs rt : RegNum) (imm : BitVec 16)
  /-- R161: I format, fields rs, rt, imm. -/
  | bne (rs rt : RegNum) (imm : BitVec 16)
  /-- R162: I format, fields rs, rt, imm. -/
  | blez (rs rt : RegNum) (imm : BitVec 16)
  /-- R163: I format, fields rs, rt, imm. -/
  | bgtz (rs rt : RegNum) (imm : BitVec 16)
  /-- R121: I format, fields rs, rt, imm. -/
  | addi (rs rt : RegNum) (imm : BitVec 16)
  /-- R122: I format, fields rs, rt, imm. -/
  | addiu (rs rt : RegNum) (imm : BitVec 16)
  /-- R123: I format, fields rs, rt, imm. -/
  | slti (rs rt : RegNum) (imm : BitVec 16)
  /-- R124: I format, fields rs, rt, imm. -/
  | sltiu (rs rt : RegNum) (imm : BitVec 16)
  /-- R125: I format, fields rs, rt, imm. -/
  | andi (rs rt : RegNum) (imm : BitVec 16)
  /-- R126: I format, fields rs, rt, imm. -/
  | ori (rs rt : RegNum) (imm : BitVec 16)
  /-- R127: I format, fields rs, rt, imm. -/
  | lui (rs rt : RegNum) (imm : BitVec 16)
  /-- R140: I format, fields rs, rt, imm. -/
  | lw (rs rt : RegNum) (imm : BitVec 16)
  /-- R141: I format, fields rs, rt, imm. -/
  | lbu (rs rt : RegNum) (imm : BitVec 16)
  /-- R142: I format, fields rs, rt, imm. -/
  | lhu (rs rt : RegNum) (imm : BitVec 16)
  /-- R143: I format, fields rs, rt, imm. -/
  | sb (rs rt : RegNum) (imm : BitVec 16)
  /-- R144: I format, fields rs, rt, imm. -/
  | sh (rs rt : RegNum) (imm : BitVec 16)
  /-- R145: I format, fields rs, rt, imm. -/
  | sw (rs rt : RegNum) (imm : BitVec 16)
  deriving DecidableEq, Repr

/-- The kinds of 30_encoding R83, a closed set. `bubble` tags an empty slot and is never the kind of a
word (R84, R85). -/
inductive OpKind where
  | arithmeticOp
  | arithmeticImmediateOp
  | load
  | store
  | branch
  | jump
  | jumpRegister
  | halt
  | illegal
  | bubble
  deriving DecidableEq, Repr

end Sys2Proof
end

