-- ==== Sys2Proof/Config.lean ====
section
/-! DEFINITION. What an instance of the block fixes and what reaches it from outside: the cache
configurations (43_cache_model R180), the OPEN parameters (00_scope R5), the classifier parameter
(30_encoding R94), the executor's records and responses (10_state R38, 60_exceptions R283), and the free
values: the executor's answers beyond the prepared ones, and where the executor continues after a fault. -/

namespace Sys2Proof

/-- The four numbers that configure a cache (43_cache_model R180), naturals without a bound. -/
structure CacheConfig where
  totalSizeBytes : Nat
  blockSizeBytes : Nat
  ways : Nat
  missLatencyCycles : Nat
  deriving DecidableEq, Repr

/-- Where a regular stall cycle puts its Bubble: the OPEN parameter STALL_BUBBLE_STAGE
(44_pipeline_engine R214, R238). -/
inductive BubbleStage where
  | execute
  | decode
  deriving DecidableEq, Repr

/-- The OPEN parameters the engine reads (00_scope R5). The field defaults are the spec's defaults. -/
structure Params where
  /-- EXEC_LOAD_BRANCH_STALL (44_pipeline_engine R227). -/
  execLoadBranchStall : Nat := 0
  /-- STALL_BUBBLE_STAGE (44_pipeline_engine R238). -/
  stallBubbleStage : BubbleStage := .execute
  deriving DecidableEq, Repr

/-- The inputs of the construction (70_reset_and_hazards R310, R312): the instruction-cache and the
data-cache configuration, and the OPEN parameters. -/
structure Setup where
  icfg : CacheConfig
  dcfg : CacheConfig
  params : Params := {}
  deriving DecidableEq, Repr

/-- A touched data address or its absence, in a record and in the history (10_state R22, R38). -/
inductive Touched where
  | noAddr
  | addr (a : Word)
  deriving DecidableEq, Repr, Inhabited

/-- InstructionExecutionRecord (10_state R38). `pc` is the byte address the word was fetched from
(10_state R35, 92_eei_decisions D26). -/
structure Record where
  pc : Word
  word : Word
  addr : Touched
  valid : Bool
  overflow : Bool
  halt : Bool
  deriving DecidableEq, Repr, Inhabited

/-- What `executeNext()` answers: a record, or the fatal out-of-range report in its place
(00_scope R7, 60_exceptions R283, 92_eei_decisions D24). -/
inductive Response where
  | record (r : Record)
  | outOfRange
  deriving DecidableEq, Repr, Inhabited

/-- The classifier parameter (30_encoding R94): total functions of the word. The default instance is
`Classifier.mips` of Decode.lean. `srcRegs` is a set, held as a list that is only asked for membership. -/
structure Classifier where
  classify : Word → OpKind
  destReg : Word → Option RegNum
  srcRegs : Word → List RegNum

/-- What 30_encoding R94 assumes of a classifier: (a) R84, no word is a Bubble; (b) a destination exactly
for the three producing kinds; (c) sources only for the three consuming kinds. -/
structure Classifier.Lawful (K : Classifier) : Prop where
  no_bubble : ∀ w, K.classify w ≠ .bubble
  dest_iff : ∀ w, (K.destReg w).isSome ↔
    K.classify w = .arithmeticOp ∨ K.classify w = .arithmeticImmediateOp ∨ K.classify w = .load
  src_only : ∀ w, K.srcRegs w ≠ [] →
    K.classify w = .branch ∨ K.classify w = .arithmeticOp ∨ K.classify w = .arithmeticImmediateOp

/-- FREE VALUE (DESIGN CHOICE, safe; log entry 1): the executor's answer to its n-th call once the prepared
responses of `State.input` are used up. The executor is external and always answers (00_scope R7); nothing
constrains what it answers. -/
opaque Config.executor : Nat → Response

/-- FREE VALUE (DESIGN CHOICE, safe; log entry 15): the address at which the orientation executor continues
after its n-th recoverable fault. The source names none (60_exceptions R289, 42_control_halt R168). -/
opaque Config.faultTarget : Nat → Word

end Sys2Proof
end

