-- ==== Sys2Proof/Decode.lean ====
section
/-! DEFINITION. The instruction word (30_encoding): the field accessors (R81), the decoder in the order of
tests of R91, the encoder from the same formats (R82), the kind, destination and sources of an instruction
(R88, R89, R92) and the default classifier made of them (R94, "decoded once per instruction"). All numbers
here are the spec's own general knowledge (93_implementation_defined G2 to G4; log entry 4). -/

namespace Sys2Proof

/-! ### Field accessors (30_encoding R81), total on every word -/

/-- `w[31:26]` (R81). -/
def opcode (w : Word) : BitVec 6 := w.extractLsb' 26 6
/-- `w[25:21]` (R81). -/
def rs (w : Word) : RegNum := w.extractLsb' 21 5
/-- `w[20:16]` (R81). -/
def rt (w : Word) : RegNum := w.extractLsb' 16 5
/-- `w[15:11]` (R81). -/
def rd (w : Word) : RegNum := w.extractLsb' 11 5
/-- `w[10:6]` (R81); no rule of the block reads it. -/
def shamt (w : Word) : RegNum := w.extractLsb' 6 5
/-- `w[5:0]` (R81). -/
def funct (w : Word) : BitVec 6 := w.extractLsb' 0 6
/-- `w[15:0]` (R81); the block never uses an immediate (R95). -/
def imm (w : Word) : BitVec 16 := w.extractLsb' 0 16
/-- `w[25:0]` (R81); no rule of the block reads it. -/
def target (w : Word) : BitVec 26 := w.extractLsb' 0 26

/-- HALT_WORD, the halt sentinel of the default classifier (30_encoding R91). -/
def haltWord : Word := 0xFEEDFEED#32

/-! ### Decoding -/

/-- Why the decoder rejects: the reason a word is Illegal (30_encoding R93), or fewer than four bytes. -/
inductive Reject where
  /-- `opcode` is not listed in R92. -/
  | illegalOpcode (op : BitVec 6)
  /-- `opcode = 0` and `funct` is not listed in R92. -/
  | illegalFunct (fn : BitVec 6)
  /-- Fewer bytes than one instruction word (R80, R96). -/
  | truncated
  deriving DecidableEq, Repr

/-- The decoder on a word, in the order of R91: the halt word, then `funct` under `opcode = 0`, then `opcode`. -/
def decode (w : Word) : Except Reject Instr :=
  if w = haltWord then .ok .halt
  else match opcode w with
    | 0x00#6 => match funct w with
      | 0x00#6 => .ok (.sll (rs w) (rt w) (rd w) (shamt w))
      | 0x02#6 => .ok (.srl (rs w) (rt w) (rd w) (shamt w))
      | 0x08#6 => .ok (.jr (rs w) (rt w) (rd w) (shamt w))
      | 0x20#6 => .ok (.add (rs w) (rt w) (rd w) (shamt w))
      | 0x21#6 => .ok (.addu (rs w) (rt w) (rd w) (shamt w))
      | 0x22#6 => .ok (.sub (rs w) (rt w) (rd w) (shamt w))
      | 0x23#6 => .ok (.subu (rs w) (rt w) (rd w) (shamt w))
      | 0x24#6 => .ok (.and (rs w) (rt w) (rd w) (shamt w))
      | 0x25#6 => .ok (.or (rs w) (rt w) (rd w) (shamt w))
      | 0x27#6 => .ok (.nor (rs w) (rt w) (rd w) (shamt w))
      | 0x2A#6 => .ok (.slt (rs w) (rt w) (rd w) (shamt w))
      | 0x2B#6 => .ok (.sltu (rs w) (rt w) (rd w) (shamt w))
      | fn => .error (.illegalFunct fn)
    | 0x02#6 => .ok (.j (target w))
    | 0x03#6 => .ok (.jal (target w))
    | 0x04#6 => .ok (.beq (rs w) (rt w) (imm w))
    | 0x05#6 => .ok (.bne (rs w) (rt w) (imm w))
    | 0x06#6 => .ok (.blez (rs w) (rt w) (imm w))
    | 0x07#6 => .ok (.bgtz (rs w) (rt w) (imm w))
    | 0x08#6 => .ok (.addi (rs w) (rt w) (imm w))
    | 0x09#6 => .ok (.addiu (rs w) (rt w) (imm w))
    | 0x0A#6 => .ok (.slti (rs w) (rt w) (imm w))
    | 0x0B#6 => .ok (.sltiu (rs w) (rt w) (imm w))
    | 0x0C#6 => .ok (.andi (rs w) (rt w) (imm w))
    | 0x0D#6 => .ok (.ori (rs w) (rt w) (imm w))
    | 0x0F#6 => .ok (.lui (rs w) (rt w) (imm w))
    | 0x23#6 => .ok (.lw (rs w) (rt w) (imm w))
    | 0x24#6 => .ok (.lbu (rs w) (rt w) (imm w))
    | 0x25#6 => .ok (.lhu (rs w) (rt w) (imm w))
    | 0x28#6 => .ok (.sb (rs w) (rt w) (imm w))
    | 0x29#6 => .ok (.sh (rs w) (rt w) (imm w))
    | 0x2B#6 => .ok (.sw (rs w) (rt w) (imm w))
    | op => .error (.illegalOpcode op)

/-- Four bytes as the memory store lays a word out, most significant byte first (20_memory R63). -/
def wordOfBytes (b0 b1 b2 b3 : Byte) : Word := b0 ++ b1 ++ b2 ++ b3

/-- The four bytes of a word, most significant first (20_memory R63). -/
def bytesOfWord (w : Word) : List Byte :=
  [w.extractLsb' 24 8, w.extractLsb' 16 8, w.extractLsb' 8 8, w.extractLsb' 0 8]

/-- The decoder on bytes: one word of four bytes, and the bytes that remain (R80, R96). -/
def decodeBytes : List Byte → Except Reject (Instr × List Byte)
  | b0 :: b1 :: b2 :: b3 :: rest =>
    match decode (wordOfBytes b0 b1 b2 b3) with
    | .ok i => .ok (i, rest)
    | .error e => .error e
  | _ => .error .truncated

/-- The word that an opcode-table row's `nbits` bits `w` stand for; every bit from `nbits` up is 0. -/
def tableWord (nbits w : Nat) : Word := BitVec.ofNat 32 (w % 2 ^ nbits)

/-- The instruction the decoder reads from a table row's word, laid out in bytes as the store holds it
(20_memory R63); none where the decoder rejects. -/
def decodeTableWord (nbits w : Nat) : Option Instr :=
  match decodeBytes (bytesOfWord (tableWord nbits w)) with
  | .ok (i, _) => some i
  | .error _ => none

/-! ### Encoding -/

/-- R format: `opcode = 0` and the instruction in `funct` (30_encoding R82). -/
def encodeR (fn : BitVec 6) (rs rt rd shamt : RegNum) : Word := 0x00#6 ++ rs ++ rt ++ rd ++ shamt ++ fn
/-- I format: the instruction in `opcode` (30_encoding R82). -/
def encodeI (op : BitVec 6) (rs rt : RegNum) (imm : BitVec 16) : Word := op ++ rs ++ rt ++ imm
/-- J format: the instruction in `opcode` (30_encoding R82). -/
def encodeJ (op : BitVec 6) (target : BitVec 26) : Word := op ++ target

/-- The word of an instruction (30_encoding R82, R92). -/
def encode : Instr → Word
  | .halt => haltWord
  | .sll rs rt rd shamt => encodeR 0x00#6 rs rt rd shamt
  | .srl rs rt rd shamt => encodeR 0x02#6 rs rt rd shamt
  | .jr rs rt rd shamt => encodeR 0x08#6 rs rt rd shamt
  | .add rs rt rd shamt => encodeR 0x20#6 rs rt rd shamt
  | .addu rs rt rd shamt => encodeR 0x21#6 rs rt rd shamt
  | .sub rs rt rd shamt => encodeR 0x22#6 rs rt rd shamt
  | .subu rs rt rd shamt => encodeR 0x23#6 rs rt rd shamt
  | .and rs rt rd shamt => encodeR 0x24#6 rs rt rd shamt
  | .or rs rt rd shamt => encodeR 0x25#6 rs rt rd shamt
  | .nor rs rt rd shamt => encodeR 0x27#6 rs rt rd shamt
  | .slt rs rt rd shamt => encodeR 0x2A#6 rs rt rd shamt
  | .sltu rs rt rd shamt => encodeR 0x2B#6 rs rt rd shamt
  | .j target => encodeJ 0x02#6 target
  | .jal target => encodeJ 0x03#6 target
  | .beq rs rt imm => encodeI 0x04#6 rs rt imm
  | .bne rs rt imm => encodeI 0x05#6 rs rt imm
  | .blez rs rt imm => encodeI 0x06#6 rs rt imm
  | .bgtz rs rt imm => encodeI 0x07#6 rs rt imm
  | .addi rs rt imm => encodeI 0x08#6 rs rt imm
  | .addiu rs rt imm => encodeI 0x09#6 rs rt imm
  | .slti rs rt imm => encodeI 0x0A#6 rs rt imm
  | .sltiu rs rt imm => encodeI 0x0B#6 rs rt imm
  | .andi rs rt imm => encodeI 0x0C#6 rs rt imm
  | .ori rs rt imm => encodeI 0x0D#6 rs rt imm
  | .lui rs rt imm => encodeI 0x0F#6 rs rt imm
  | .lw rs rt imm => encodeI 0x23#6 rs rt imm
  | .lbu rs rt imm => encodeI 0x24#6 rs rt imm
  | .lhu rs rt imm => encodeI 0x25#6 rs rt imm
  | .sb rs rt imm => encodeI 0x28#6 rs rt imm
  | .sh rs rt imm => encodeI 0x29#6 rs rt imm
  | .sw rs rt imm => encodeI 0x2B#6 rs rt imm

/-! ### The default classifier -/

/-- The kind column of the table (30_encoding R92). -/
def Instr.kind : Instr → OpKind
  | .halt => .halt
  | .sll _ _ _ _ => .arithmeticOp
  | .srl _ _ _ _ => .arithmeticOp
  | .jr _ _ _ _ => .jumpRegister
  | .add _ _ _ _ => .arithmeticOp
  | .addu _ _ _ _ => .arithmeticOp
  | .sub _ _ _ _ => .arithmeticOp
  | .subu _ _ _ _ => .arithmeticOp
  | .and _ _ _ _ => .arithmeticOp
  | .or _ _ _ _ => .arithmeticOp
  | .nor _ _ _ _ => .arithmeticOp
  | .slt _ _ _ _ => .arithmeticOp
  | .sltu _ _ _ _ => .arithmeticOp
  | .j _ => .jump
  | .jal _ => .jump
  | .beq _ _ _ => .branch
  | .bne _ _ _ => .branch
  | .blez _ _ _ => .branch
  | .bgtz _ _ _ => .branch
  | .addi _ _ _ => .arithmeticImmediateOp
  | .addiu _ _ _ => .arithmeticImmediateOp
  | .slti _ _ _ => .arithmeticImmediateOp
  | .sltiu _ _ _ => .arithmeticImmediateOp
  | .andi _ _ _ => .arithmeticImmediateOp
  | .ori _ _ _ => .arithmeticImmediateOp
  | .lui _ _ _ => .arithmeticImmediateOp
  | .lw _ _ _ => .load
  | .lbu _ _ _ => .load
  | .lhu _ _ _ => .load
  | .sb _ _ _ => .store
  | .sh _ _ _ => .store
  | .sw _ _ _ => .store

/-- The kind of any word: the kind of the instruction it decodes to, else Illegal (30_encoding R91, R93). -/
def classifyWord (w : Word) : OpKind :=
  match decode w with
  | .ok i => i.kind
  | .error _ => .illegal

/-- `loadTargetRegister(word)`: the register a Load writes, for hazard detection only (30_encoding R88, R90). -/
def loadTargetRegister (w : Word) : RegNum := rt w

/-- `branchSourceRegisters(word)`: the registers a Branch reads, for hazard detection only (30_encoding R89, R90). -/
def branchSourceRegisters (w : Word) : List RegNum := [rs w, rt w]

/-- `destReg(w)` by the kind of the word (30_encoding R88). -/
def destRegWord (w : Word) : Option RegNum :=
  match classifyWord w with
  | .arithmeticOp => some (rd w)
  | .arithmeticImmediateOp => some (rt w)
  | .load => some (loadTargetRegister w)
  | .store | .branch | .jump | .jumpRegister | .halt | .illegal | .bubble => none

/-- `srcRegs(w)` by the kind of the word, the fields taken as they stand (30_encoding R89). -/
def srcRegsWord (w : Word) : List RegNum :=
  match classifyWord w with
  | .branch => branchSourceRegisters w
  | .arithmeticOp => [rs w, rt w]
  | .arithmeticImmediateOp => [rs w]
  | .load | .store | .jump | .jumpRegister | .halt | .illegal | .bubble => []

/-- The default classifier instance (30_encoding R92, R94). -/
def Classifier.mips : Classifier where
  classify := classifyWord
  destReg := destRegWord
  srcRegs := srcRegsWord

end Sys2Proof
end

