-- ==== Sys2Proof/Machine/CacheModel.lean ====
section
/-! DEFINITION. CacheModel (43_cache_model): a set-associative tag store with LRU replacement. Its
configuration check (R181), derived constants (R182), address decomposition (R183), construction (R313 of
70_reset_and_hazards, R42 of 10_state) and its one operation `access` (R184 to R188). It holds tags only: no
data byte, no dirty bit (10_state R30, 20_memory R73). -/

namespace Sys2Proof.Machine

/-- One way of a set (10_state R30). `rank` is recencyRank: 1 is the most recently used, 0 the filler of an
invalid way, never read. -/
structure Way where
  tag : Nat
  valid : Bool
  rank : Nat
  deriving DecidableEq, Repr

/-- An invalid way as reset leaves it (10_state R42). -/
def Way.invalid : Way := { tag := 0, valid := false, rank := 0 }

/-- One CacheModel instance (10_state R29 to R32): its configuration registers, its sets of ways in index
order, and its two counters. -/
structure Cache where
  cfg : CacheConfig
  sets : List (List Way)
  hits : Nat
  misses : Nat
  deriving DecidableEq, Repr

/-! ### Configuration (R181, R182) -/

/-- A power of two: 1, 2, 4, … (R181). -/
def isPow2 (n : Nat) : Bool := n != 0 && 2 ^ n.log2 == n

/-- `setCount`, the floor quotient of R181. -/
def setCount (c : CacheConfig) : Nat := c.totalSizeBytes / (c.ways * c.blockSizeBytes)

/-- `b = log2(blockSizeBytes)`, the offset bits (R182). -/
def offsetBits (c : CacheConfig) : Nat := c.blockSizeBytes.log2

/-- `s = log2(setCount)`, the index bits (R182). -/
def indexBits (c : CacheConfig) : Nat := (setCount c).log2

/-- Validity of a configuration (R181): `ways >= 1`, `blockSizeBytes` a power of two, `setCount` a power of
two and so at least 1. Nothing is asked of `missLatencyCycles`. -/
def validConfig (c : CacheConfig) : Bool :=
  1 ≤ c.ways && isPow2 c.blockSizeBytes && isPow2 (setCount c)

/-- A freshly constructed cache: `setCount` sets of `ways` invalid ways, counters 0 (10_state R42). -/
def freshCache (c : CacheConfig) : Cache :=
  { cfg := c, sets := List.replicate (setCount c) (List.replicate c.ways Way.invalid), hits := 0, misses := 0 }

/-- The cache of a construction that failed: no set exists (70_reset_and_hazards R313, 60_exceptions R284). -/
def absentCache (c : CacheConfig) : Cache := { cfg := c, sets := [], hits := 0, misses := 0 }

/-! ### Address decomposition (R183) -/

/-- The set index of an address (R183). -/
def setIndex (c : CacheConfig) (a : Word) : Nat := (a.toNat >>> offsetBits c) % setCount c

/-- The tag of an address (R183). -/
def tagOf (c : CacheConfig) (a : Word) : Nat := a.toNat >>> (offsetBits c + indexBits c)

/-! ### One set: hit, fill, evict (R185 to R187) -/

/-- The way holds the tag: valid, and its tag is `t` (R185). -/
def Way.holds (t : Nat) (w : Way) : Bool := w.valid && w.tag == t

/-- A way other than the matched one on a hit at rank `r`: a valid way with rank less than `r` ages by one,
any other way is unchanged (R185). -/
def Way.ageBelow (r : Nat) (w : Way) : Way :=
  if w.valid && decide (w.rank < r) then { w with rank := w.rank + 1 } else w

/-- A way other than the filled one: a valid way ages by one (R186). -/
def Way.age (w : Way) : Way := if w.valid then { w with rank := w.rank + 1 } else w

/-- The set after a hit on tag `t` whose matched way had rank `r` (R185): the matched way, the first that
holds `t`, gets rank 1. -/
def promote (t r : Nat) : List Way → List Way
  | [] => []
  | w :: ws =>
    if w.holds t then { w with rank := 1 } :: ws.map (Way.ageBelow r) else w.ageBelow r :: promote t r ws

/-- The set after a miss with a free way (R186): the first invalid way, the lowest index
(92_eei_decisions D29), takes the tag at rank 1; every way that was valid ages by one. -/
def fill (t : Nat) : List Way → List Way
  | [] => []
  | w :: ws =>
    if w.valid then w.age :: fill t ws else { tag := t, valid := true, rank := 1 } :: ws.map Way.age

/-- The set after a miss with every way valid (R187): the way at rank `n = ways` loses its tag to `t`, and
every rank `k` becomes `k mod n + 1`. -/
def evict (n t : Nat) (ws : List Way) : List Way :=
  ws.map fun w => { w with tag := if w.rank = n then t else w.tag, rank := w.rank % n + 1 }

/-- One lookup in one set (R184): the hit and the set after it. -/
def accessSet (n t : Nat) (ws : List Way) : Bool × List Way :=
  match ws.find? (Way.holds t) with
  | some m => (true, promote t m.rank ws)
  | none => (false, if ws.all Way.valid then evict n t ws else fill t ws)

/-! ### The operation `access` (R184, R188) -/

/-- `access(address, isWrite) -> hit` (R184). `isWrite` has no effect on anything (R188). -/
def Cache.access (c : Cache) (a : Word) (_isWrite : Bool) : Bool × Cache :=
  let i := setIndex c.cfg a
  let r := accessSet c.cfg.ways (tagOf c.cfg a) (c.sets.getD i [])
  (r.1, { c with
    sets := c.sets.set i r.2
    hits := if r.1 then c.hits + 1 else c.hits
    misses := if r.1 then c.misses else c.misses + 1 })

end Sys2Proof.Machine
end

