-- ==== Sys2Proof/Machine/State.lean ====
section
/-! DEFINITION. The state of the block (10_state), plain data, and its value after reset
(70_reset_and_hazards R310 to R313); the fatal conditions and the refusals.
The register file, the program counter and the memory bytes are NOT the block's (10_state R34, R35,
20_memory): they belong to the external executor. -/

namespace Sys2Proof.Machine

/-- A pipeline slot: the Bubble tag or one instruction word (10_state R20). Bubble is no word (30_encoding R85). -/
inductive Slot where
  | bubble
  | instr (w : Word)
  deriving DecidableEq, Repr

/-- The five stages, from the youngest instruction to the oldest (00_scope R12). -/
inductive Stage where
  | fetch
  | decode
  | execute
  | memory
  | writeback
  deriving DecidableEq, Repr

/-- One entry per stage: the fixed array keyed by stage of 10_state R21 and R22. -/
structure Pipe (α : Type) where
  fetch : α
  decode : α
  execute : α
  memory : α
  writeback : α
  deriving DecidableEq, Repr

/-- The entry of a stage: `slot[st]`, `hist[st]`. -/
def Pipe.get {α : Type} (p : Pipe α) : Stage → α
  | .fetch => p.fetch
  | .decode => p.decode
  | .execute => p.execute
  | .memory => p.memory
  | .writeback => p.writeback

/-- The same entry in every stage. -/
def Pipe.fill {α : Type} (a : α) : Pipe α := ⟨a, a, a, a, a⟩

/-- StallState: the four counters of stall cycles scheduled and not yet served (10_state R23). -/
structure StallState where
  iMiss : Nat
  dMiss : Nat
  decHaz : Nat
  exHaz : Nat
  deriving DecidableEq, Repr

/-- The status of the run (10_state R27). -/
inductive Status where
  | running
  | halt
  | error
  deriving DecidableEq, Repr

/-- The counters of the StatisticsCollector (10_state R33). -/
structure Stats where
  dynInstr : Nat
  stallIMiss : Nat
  stallDMiss : Nat
  stallDec : Nat
  stallEx : Nat
  flushCycles : Nat
  deriving DecidableEq, Repr

/-- What a completed cycle emits (44_pipeline_engine R231). -/
structure Snapshot where
  cycleNumber : Nat
  slot : Pipe Slot
  deriving DecidableEq, Repr

/-- The state of the block. The last three fields are the MODEL's own: the log of emitted snapshots (log
entry 7), and the input of the step, the executor's response stream (00_scope R7, 10_state R37; log entry 1). -/
structure State where
  /-- The OPEN parameters (00_scope R5); no rule writes them. -/
  params : Params
  /-- The pipeline shift register (R21). -/
  slot : Pipe Slot
  /-- MemoryAccessHistory, in lockstep with `slot` (R22). -/
  hist : Pipe Touched
  /-- Stall cycles scheduled and not yet served (R23). -/
  stall : StallState
  /-- Flush cycles scheduled and not yet served (R24). -/
  flush : Nat
  /-- The instruction in Memory is the one whose lookup missed, and has not moved since (R25). -/
  dMissInMem : Bool
  /-- The halt record has been obtained (R26). -/
  halted : Bool
  /-- Drain cycles still to run (R26). -/
  drain : Nat
  /-- The status of the run (R27). -/
  status : Status
  /-- Cycles completed since reset (R28). -/
  cycle : Nat
  /-- The instruction cache (R29 to R32). -/
  icache : Cache
  /-- The data cache (R29 to R32). -/
  dcache : Cache
  /-- The statistics counters (R33). -/
  stats : Stats
  /-- MODEL: the snapshots emitted so far, oldest first (44_pipeline_engine R231, 60_exceptions R295). -/
  trace : List Snapshot
  /-- MODEL: the executor's responses prepared outside the block and not yet consumed. -/
  input : List Response
  /-- MODEL: how often `executeNext()` has been called; the index of the next free response. -/
  calls : Nat
  deriving DecidableEq, Repr

/-- The fatal conditions (60_exceptions R280) as failures of an operation. `step` never ends in one: in the
block they are the value `error` of `status`, after which every request is a no-op (44_pipeline_engine R211). -/
inductive Fault where
  /-- Raised by the construction of a cache whose configuration is invalid (60_exceptions R284). Safe: no
  cycle runs. -/
  | configurationError
  /-- Raised by an access of the memory store outside its window (20_memory R61). Safe: the executor
  reports it to the block in place of a record (60_exceptions R283). -/
  | outOfRangeMemoryAccess
  deriving DecidableEq, Repr

/-- Refusals. No meaning of this model ends in one. -/
inductive Refusal where
  /-- Raised by the dispatch for an instruction without a meaning; no arm raises it. Safe. -/
  | notModelled (mnemonic : String)
  deriving DecidableEq, Repr

/-- The reset state of engine and statistics around two given caches (10_state R41, R43). -/
def State.resetWith (p : Params) (ic dc : Cache) (st : Status) : State where
  params := p
  slot := Pipe.fill .bubble
  hist := Pipe.fill .noAddr
  stall := ⟨0, 0, 0, 0⟩
  flush := 0
  dMissInMem := false
  halted := false
  drain := 0
  status := st
  cycle := 0
  icache := ic
  dcache := dc
  stats := ⟨0, 0, 0, 0, 0, 0⟩
  trace := []
  input := []
  calls := 0

/-- Reset, the construction of the block from its configuration (70_reset_and_hazards R310, R313): with two
valid configurations the state of R311; with an invalid one no cache is constructed and the status is
`error`, so that no cycle ever runs (60_exceptions R284). -/
def State.construct (c : Setup) : State :=
  if validConfig c.icfg && validConfig c.dcfg then
    State.resetWith c.params (freshCache c.icfg) (freshCache c.dcfg) .running
  else
    State.resetWith c.params (absentCache c.icfg) (absentCache c.dcfg) .error

/-- DESIGN CHOICE (unsafe; log entry 2): the configuration of `State.reset`, for both caches the one
95_test_vectors uses unless it says otherwise. The source leaves it to the caller (70_reset_and_hazards R312). -/
def defaultSetup : Setup := { icfg := ⟨64, 16, 1, 0⟩, dcfg := ⟨64, 16, 1, 0⟩ }

/-- The machine right after reset with the default configuration. Reset with any other is `State.construct`. -/
def State.reset : State := State.construct defaultSetup

end Sys2Proof.Machine
end

