-- ==== Sys2Proof/Machine/Flags.lean ====
section
/-! DEFINITION. The flags a record brings, in their order of precedence (60_exceptions R288(b)), the lengths
they cost (00_scope R5), and the counters that choose the shape of a cycle (44_pipeline_engine R210, R213).
The block has no condition codes (10_state R36). -/

namespace Sys2Proof.Machine

/-- The faults a record can signal (60_exceptions R286). -/
inductive RecordFault where
  | illegalInstruction
  | arithmeticOverflow
  deriving DecidableEq, Repr

/-- FLUSH_ILLEGAL and FLUSH_OVERFLOW: the flush cycles a fault costs (60_exceptions R281, R282). -/
def RecordFault.flushLength : RecordFault → Nat
  | .illegalInstruction => 2
  | .arithmeticOverflow => 3

/-- The fault that takes effect for a record: halt, then invalid, then overflow; at most one
(44_pipeline_engine R221, 60_exceptions R285, R288). The flags alone decide, not the word (30_encoding R99). -/
def recordFault (r : Record) : Option RecordFault :=
  if r.halt then none
  else if !r.valid then some .illegalInstruction
  else if r.overflow then some .arithmeticOverflow
  else none

/-- DRAIN: the length of the halt drain (00_scope R5, 44_pipeline_engine R232). -/
def drainLength : Nat := 4

/-- The four categories of a stall cycle (10_state R23). -/
inductive StallKind where
  | iMiss
  | dMiss
  | decHaz
  | exHaz
  deriving DecidableEq, Repr

/-- The active stall: the first nonzero counter in the order iMiss, dMiss, decHaz, exHaz
(44_pipeline_engine R213, 90_conflicts C1). -/
def activeStall (c : StallState) : Option StallKind :=
  if c.iMiss ≠ 0 then some .iMiss
  else if c.dMiss ≠ 0 then some .dMiss
  else if c.decHaz ≠ 0 then some .decHaz
  else if c.exHaz ≠ 0 then some .exHaz
  else none

/-- The shape of a cycle taken while the status is Running (44_pipeline_engine R210). `fetch` and `drain` are
the two normal cycles, `halted` telling them apart. -/
inductive Shape where
  | flush
  | stall (c : StallKind)
  | drain
  | fetch
  deriving DecidableEq, Repr

/-- The choice of the shape from the counters at the start of the cycle: flush, then stall, then normal
(44_pipeline_engine R210, 60_exceptions R288(a)). -/
def shapeOf (s : State) : Shape :=
  if s.flush ≠ 0 then .flush
  else match activeStall s.stall with
    | some c => .stall c
    | none => if s.halted then .drain else .fetch

end Sys2Proof.Machine
end

