-- ==== Sys2Proof/Machine/Operands.lean ====
section
/-! DEFINITION. What the engine reads of an instruction: the predicates on its kind (30_encoding R87), the
kind of a slot (R84), the producer and consumer registers (R88, R89), and hazard detection
(44_pipeline_engine R222 to R227), for any classifier `K` (R94). -/

namespace Sys2Proof

/-- R87. -/
def OpKind.isLoad (k : OpKind) : Bool := k == .load
/-- R87. -/
def OpKind.isStore (k : OpKind) : Bool := k == .store
/-- R87. -/
def OpKind.isBranch (k : OpKind) : Bool := k == .branch
/-- R87: both arithmetic kinds (92_eei_decisions D14). -/
def OpKind.isArithmetic (k : OpKind) : Bool := k == .arithmeticOp || k == .arithmeticImmediateOp
/-- R87: the form whose destination is `rt`. -/
def OpKind.isImmediateForm (k : OpKind) : Bool := k == .arithmeticImmediateOp
/-- R87: a load or a store. -/
def OpKind.isMem (k : OpKind) : Bool := k.isLoad || k.isStore

namespace Machine

/-- The kind of a slot: `kind(Bubble) = Bubble`, `kind(Instr(w)) = classify(w)` (30_encoding R84). -/
def Slot.kind (K : Classifier) : Slot → OpKind
  | .bubble => .bubble
  | .instr w => K.classify w

/-- The destination register of a slot; a Bubble has none. -/
def Slot.destReg (K : Classifier) : Slot → Option RegNum
  | .bubble => none
  | .instr w => K.destReg w

/-- What hazard detection and the history push ask of the instruction newly in Fetch. -/
structure Fetched where
  word : Word
  kind : OpKind
  srcRegs : List RegNum
  deriving DecidableEq, Repr

/-- The new instruction as the classifier `K` sees its word. -/
def Fetched.ofWord (K : Classifier) (w : Word) : Fetched := ⟨w, K.classify w, K.srcRegs w⟩

/-- The producer's destination is one of the consumer's sources (44_pipeline_engine R223 to R225,
70_reset_and_hazards R317 "match"). -/
def feeds (K : Classifier) (producer : Slot) (srcs : List RegNum) : Bool :=
  (producer.destReg K).any srcs.contains

/-- Which hazard rule fires (44_pipeline_engine R223, R224, R225, R227), or none (R226). -/
inductive Hazard where
  | opBranch
  | loadBranch
  | loadOp
  | execLoadBranch
  | none
  deriving DecidableEq, Repr

/-- Hazard detection on the instruction newly in Fetch, against Decode, and against Execute for the OPEN
rule R227 only, after the shift (44_pipeline_engine R222 to R227). At most one rule fires. DEDUCED (unsafe; log entry
17): with a Bubble in Decode, R227 is still evaluated. -/
def hazardOf (K : Classifier) (f : Fetched) (dec exe : Slot) : Hazard :=
  if f.kind.isBranch && (dec.kind K).isArithmetic && feeds K dec f.srcRegs then .opBranch
  else if f.kind.isBranch && (dec.kind K).isLoad && feeds K dec f.srcRegs then .loadBranch
  else if f.kind.isArithmetic && (dec.kind K).isLoad && feeds K dec f.srcRegs then .loadOp
  else if f.kind.isBranch && (exe.kind K).isLoad && feeds K exe f.srcRegs then .execLoadBranch
  else .none

/-- The executeHazard cycles a hazard schedules: STALL_OP_BRANCH and STALL_LOAD_OP (00_scope R5). -/
def Hazard.exCycles : Hazard → Nat
  | .opBranch => 1
  | .loadOp => 1
  | .loadBranch | .execLoadBranch | .none => 0

/-- The decodeHazard cycles a hazard schedules: STALL_LOAD_BRANCH, and EXEC_LOAD_BRANCH_STALL for the OPEN
rule (00_scope R5, 44_pipeline_engine R227). -/
def Hazard.decCycles (p : Params) : Hazard → Nat
  | .loadBranch => 2
  | .execLoadBranch => p.execLoadBranchStall
  | .opBranch | .loadOp | .none => 0

/-- The address the history takes for the new instruction: the record's, if the word is a load or a store
(44_pipeline_engine R219, 41_load_store R147). -/
def pushedAddr (k : OpKind) (a : Touched) : Touched := if k.isMem then a else .noAddr

end Machine

end Sys2Proof
end

