-- ==== Sys2Proof/Machine/Ops.lean ====
section
/-! DEFINITION. The shared operations of a cycle (44_pipeline_engine): the executor call, the two ways the
slots move, the data-cache timing, the fault arming and the halt latch, the serving of a counter, the end of
a cycle, and from them the five whole cycles: flush, stall, drain, fetch and the fatal abort. Every
operation takes the classifier `K` as an argument (30_encoding R94). -/

namespace Sys2Proof.Machine

/-! ### Construction of one cache -/

/-- Construction of a cache (43_cache_model R181, 70_reset_and_hazards R313). -/
def constructCache (c : CacheConfig) : Except Fault Cache :=
  if validConfig c then .ok (freshCache c) else .error .configurationError

/-! ### The executor as the input of the step (00_scope R7) -/

/-- What `executeNext()` answers if it is called in this state: the next prepared response, or beyond
those the executor's own, a free value. -/
def State.nextResponse (s : State) : Response := s.input.head?.getD (Config.executor s.calls)

/-- The call of `executeNext()`: the response is consumed (00_scope R7, 44_pipeline_engine R216). -/
def State.callExecutor (s : State) : State := { s with input := s.input.tail, calls := s.calls + 1 }

/-! ### Movement of the slots -/

/-- Every entry moves one stage on, `new` enters Fetch (44_pipeline_engine R218). -/
def Pipe.shift {α : Type} (new : α) (p : Pipe α) : Pipe α :=
  { fetch := new, decode := p.fetch, execute := p.decode, memory := p.execute, writeback := p.memory }

/-- The entries in a regular stall cycle, `empty` filling the gap (44_pipeline_engine R214); with the
OPEN alternative only Fetch holds and the gap is in Decode (R238). -/
def Pipe.hold {α : Type} (b : BubbleStage) (empty : α) (p : Pipe α) : Pipe α :=
  match b with
  | .execute =>
    { fetch := p.fetch, decode := p.decode, execute := empty, memory := p.execute, writeback := p.memory }
  | .decode =>
    { fetch := p.fetch, decode := empty, execute := p.decode, memory := p.execute, writeback := p.memory }

/-- The entries in a data-miss freeze: Writeback is cleared, the others hold (44_pipeline_engine R215). -/
def Pipe.freeze {α : Type} (empty : α) (p : Pipe α) : Pipe α := { p with writeback := empty }

/-- `shiftAll(new, newAddr)` (44_pipeline_engine R218, R219). The content of Memory moved, so
`dMissInMem` is cleared (10_state R25). -/
def shiftAll (new : Slot) (newAddr : Touched) (s : State) : State :=
  { s with slot := s.slot.shift new, hist := s.hist.shift newAddr, dMissInMem := false }

/-- The movement of a regular stall cycle (44_pipeline_engine R214, R238). -/
def holdFetch (s : State) : State :=
  { s with
    slot := s.slot.hold s.params.stallBubbleStage .bubble
    hist := s.hist.hold s.params.stallBubbleStage .noAddr
    dMissInMem := false }

/-- The movement of a data-miss freeze cycle (44_pipeline_engine R215): `dMissInMem` stays. -/
def freezeMemory (s : State) : State :=
  { s with slot := s.slot.freeze .bubble, hist := s.hist.freeze .noAddr }

/-! ### Cache timing -/

/-- The address looked up for the instruction now in Memory, if there is one to look up
(44_pipeline_engine R229). -/
def memoryLookup (K : Classifier) (s : State) : Option Word :=
  if (s.slot.memory.kind K).isMem then
    match s.hist.memory with
    | .addr a => some a
    | .noAddr => none
  else none

/-- `enterMemory()`: the data-cache timing for the instruction that has just entered Memory
(44_pipeline_engine R229); a miss adds to `dMiss` (R230). -/
def enterMemory (K : Classifier) (s : State) : State :=
  match memoryLookup K s with
  | none => s
  | some a =>
    let r := s.dcache.access a (s.slot.memory.kind K).isStore
    if r.1 then { s with dcache := r.2 }
    else
      { s with
        dcache := r.2
        stall := { s.stall with dMiss := s.stall.dMiss + s.dcache.cfg.missLatencyCycles }
        dMissInMem := true }

/-- The instruction-cache timing for the address just fetched (44_pipeline_engine R228). -/
def lookupFetch (pc : Word) (s : State) : State :=
  let r := s.icache.access pc false
  if r.1 then { s with icache := r.2 }
  else
    { s with
      icache := r.2
      stall := { s.stall with iMiss := s.stall.iMiss + s.icache.cfg.missLatencyCycles } }

/-! ### Faults, halt, hazards -/

/-- TAKING AN EXCEPTION: the fault of a record arms the flush, and nothing else: no register saves a pc, a
status or a cause, and there is no vector (60_exceptions R281, R282, R289). -/
def takeFault (f : RecordFault) (s : State) : State := { s with flush := s.flush + f.flushLength }

/-- THE RETURN: one flush cycle served (60_exceptions R291, 44_pipeline_engine R212). When the counter
reaches 0 the next cycle is a stall or normal cycle; nothing is restored. -/
def serveFlush (s : State) : State :=
  { s with flush := s.flush - 1, stats := { s.stats with flushCycles := s.stats.flushCycles + 1 } }

/-- The halt latch (44_pipeline_engine R220). -/
def latchHalt (s : State) : State := { s with halted := true, drain := drainLength }

/-- What the record's flags do: latch the halt, or take the fault (44_pipeline_engine R220, R221). -/
def applyFlags (r : Record) (s : State) : State :=
  if r.halt then latchHalt s
  else match recordFault r with
    | some f => takeFault f s
    | none => s

/-- The cycles a hazard schedules are added (44_pipeline_engine R223 to R227, R230). -/
def scheduleHazard (h : Hazard) (s : State) : State :=
  { s with
    stall :=
      { s.stall with
        exHaz := s.stall.exHaz + h.exCycles
        decHaz := s.stall.decHaz + h.decCycles s.params } }

/-! ### Serving a stall -/

/-- One unit off the active counter (44_pipeline_engine R213). -/
def StallState.serve (c : StallKind) (t : StallState) : StallState :=
  match c with
  | .iMiss => { t with iMiss := t.iMiss - 1 }
  | .dMiss => { t with dMiss := t.dMiss - 1 }
  | .decHaz => { t with decHaz := t.decHaz - 1 }
  | .exHaz => { t with exHaz := t.exHaz - 1 }

/-- The statistic that matches the active counter (44_pipeline_engine R213, 45_statistics R271). -/
def Stats.countStall (c : StallKind) (t : Stats) : Stats :=
  match c with
  | .iMiss => { t with stallIMiss := t.stallIMiss + 1 }
  | .dMiss => { t with stallDMiss := t.stallDMiss + 1 }
  | .decHaz => { t with stallDec := t.stallDec + 1 }
  | .exHaz => { t with stallEx := t.stallEx + 1 }

/-- The end of a stall cycle's own accounting (44_pipeline_engine R213). -/
def serveStall (c : StallKind) (s : State) : State :=
  { s with stall := s.stall.serve c, stats := s.stats.countStall c }

/-! ### The end of a cycle -/

/-- The snapshot of a state (44_pipeline_engine R231). -/
def State.snapshot (s : State) : Snapshot := { cycleNumber := s.cycle, slot := s.slot }

/-- The cycle count, then the snapshot with the new count (44_pipeline_engine R231, R233). -/
def finishCycle (s : State) : State :=
  { s with cycle := s.cycle + 1, trace := s.trace ++ [{ cycleNumber := s.cycle + 1, slot := s.slot }] }

/-- The halt accounting of a cycle that put a Bubble into Fetch (44_pipeline_engine R232): while `halted`,
one drain cycle is done, and with the last one the status becomes Halt. -/
def drainOne (s : State) : State :=
  if s.halted then
    { s with drain := s.drain - 1, status := if s.drain - 1 = 0 then .halt else s.status }
  else s

/-! ### The whole cycles -/

/-- Flush cycle (44_pipeline_engine R212). -/
def flushCycle (K : Classifier) (s : State) : State :=
  finishCycle (drainOne (serveFlush (enterMemory K (shiftAll .bubble .noAddr s))))

/-- Stall cycle with active stall `c`: the freeze if it is the data miss of the instruction in Memory
(44_pipeline_engine R215), else the regular shape (R214). -/
def stallCycle (K : Classifier) (c : StallKind) (s : State) : State :=
  finishCycle (serveStall c
    (if c = .dMiss ∧ s.dMissInMem then freezeMemory s else enterMemory K (holdFetch s)))

/-- Drain cycle: a normal cycle after the halt was obtained; no call of the executor
(44_pipeline_engine R216, R232). -/
def drainCycle (K : Classifier) (s : State) : State :=
  finishCycle (drainOne (enterMemory K (shiftAll .bubble .noAddr s)))

/-- Fatal abort: the call was made and the cycle does not happen (44_pipeline_engine R217, 60_exceptions R283). -/
def abortCycle (s : State) : State := { s.callExecutor with status := .error }

/-- The slots after the shift decide the hazard (44_pipeline_engine R222). -/
def detectHazard (K : Classifier) (f : Fetched) (s : State) : State :=
  scheduleHazard (hazardOf K f s.slot.decode s.slot.execute) s

/-- One more dynamic instruction, for every record whatever its flags (44_pipeline_engine R216, 45_statistics R271). -/
def countInstr (s : State) : State := { s with stats := { s.stats with dynInstr := s.stats.dynInstr + 1 } }

/-- Fetching normal cycle for the record `r`, its instruction seen as `f` (44_pipeline_engine R216 to R229,
in the order of R235). -/
def fetchCycle (K : Classifier) (f : Fetched) (r : Record) (s : State) : State :=
  finishCycle (enterMemory K (lookupFetch r.pc (detectHazard K f (applyFlags r
    (shiftAll (.instr f.word) (pushedAddr f.kind r.addr) (countInstr s.callExecutor))))))

/-- The transition for ANY classifier `K` (30_encoding R94, 44_pipeline_engine R210, R211): a shape chosen by the
counters, and in a fetching normal cycle the response of the executor. `step` is this with the default
classifier, reached through the decoder and the instructions' meanings. -/
def cycleWith (K : Classifier) (s : State) : State :=
  match s.status with
  | .halt => s
  | .error => s
  | .running =>
    match shapeOf s with
    | .flush => flushCycle K s
    | .stall c => stallCycle K c s
    | .drain => drainCycle K s
    | .fetch =>
      match s.nextResponse with
      | .record r => fetchCycle K (Fetched.ofWord K r.word) r s
      | .outOfRange => abortCycle s

/-- The meaning of an instruction to the block: the normal cycle that obtains its record from the executor.
If the executor answers with the out-of-range report in place of the record, the cycle is aborted. -/
def fetchAs (K : Classifier) (f : Fetched) (s : State) : Host.Outcome State Fault Refusal :=
  match s.nextResponse with
  | .record r => .next (fetchCycle K f r s)
  | .outOfRange => .next (abortCycle s)

/-! ### The record for a word placed from outside (used by withFetchWord) -/

/-- The record a well-formed executor returns for the word `w` fetched from address 0, a load or store
touching address 0 (10_state R38, 30_encoding R99; log entry 10). -/
def recordFor (w : Word) : Record where
  pc := 0
  word := w
  addr := if (classifyWord w).isMem then .addr 0 else .noAddr
  valid := classifyWord w != .illegal
  overflow := false
  halt := classifyWord w == .halt

/-- The state in which the very next cycle is the normal cycle that obtains `r`: nothing pending, not
halted, Running, the record first in the stream. -/
def State.readyFor (s : State) (r : Record) : State :=
  { s with
    stall := ⟨0, 0, 0, 0⟩
    flush := 0
    halted := false
    drain := 0
    status := .running
    input := .record r :: s.input }

end Sys2Proof.Machine
end

