-- ==== Sys2Proof/Machine/Arithmetic.lean ====
section
/-! DEFINITION. The meanings of the ArithmeticOp instructions (40_arithmetic R110 to R120, R128). What they compute is the
external executor's business; to the block an instruction is its kind, its destination and its sources. -/

namespace Sys2Proof.Machine

/-- An ArithmeticOp newly fetched: no address, sources rs and rt (40_arithmetic R128). -/
def fetchArithmetic (w : Word) (rs rt : RegNum) (s : State) : Host.Outcome State Fault Refusal :=
  fetchAs Classifier.mips ⟨w, .arithmeticOp, [rs, rt]⟩ s

/-- `sll`, R110. -/
def execSll (rs rt rd shamt : RegNum) (s : State) : Host.Outcome State Fault Refusal :=
  fetchArithmetic (encode (.sll rs rt rd shamt)) rs rt s

/-- `srl`, R111. -/
def execSrl (rs rt rd shamt : RegNum) (s : State) : Host.Outcome State Fault Refusal :=
  fetchArithmetic (encode (.srl rs rt rd shamt)) rs rt s

/-- `add`, R112. -/
def execAdd (rs rt rd shamt : RegNum) (s : State) : Host.Outcome State Fault Refusal :=
  fetchArithmetic (encode (.add rs rt rd shamt)) rs rt s

/-- `addu`, R113. -/
def execAddu (rs rt rd shamt : RegNum) (s : State) : Host.Outcome State Fault Refusal :=
  fetchArithmetic (encode (.addu rs rt rd shamt)) rs rt s

/-- `sub`, R114. -/
def execSub (rs rt rd shamt : RegNum) (s : State) : Host.Outcome State Fault Refusal :=
  fetchArithmetic (encode (.sub rs rt rd shamt)) rs rt s

/-- `subu`, R115. -/
def execSubu (rs rt rd shamt : RegNum) (s : State) : Host.Outcome State Fault Refusal :=
  fetchArithmetic (encode (.subu rs rt rd shamt)) rs rt s

/-- `and`, R116. -/
def execAnd (rs rt rd shamt : RegNum) (s : State) : Host.Outcome State Fault Refusal :=
  fetchArithmetic (encode (.and rs rt rd shamt)) rs rt s

/-- `or`, R117. -/
def execOr (rs rt rd shamt : RegNum) (s : State) : Host.Outcome State Fault Refusal :=
  fetchArithmetic (encode (.or rs rt rd shamt)) rs rt s

/-- `nor`, R118. -/
def execNor (rs rt rd shamt : RegNum) (s : State) : Host.Outcome State Fault Refusal :=
  fetchArithmetic (encode (.nor rs rt rd shamt)) rs rt s

/-- `slt`, R119. -/
def execSlt (rs rt rd shamt : RegNum) (s : State) : Host.Outcome State Fault Refusal :=
  fetchArithmetic (encode (.slt rs rt rd shamt)) rs rt s

/-- `sltu`, R120. -/
def execSltu (rs rt rd shamt : RegNum) (s : State) : Host.Outcome State Fault Refusal :=
  fetchArithmetic (encode (.sltu rs rt rd shamt)) rs rt s

end Sys2Proof.Machine
end

