-- ==== Sys2Proof/Machine/ArithmeticImmediate.lean ====
section
/-! DEFINITION. The meanings of the ArithmeticImmediateOp instructions (40_arithmetic R121 to R127, R128). -/

namespace Sys2Proof.Machine

/-- An ArithmeticImmediateOp newly fetched: no address, source rs only; `rt` is the destination
(40_arithmetic R128, 30_encoding R89). -/
def fetchImmediate (w : Word) (rs : RegNum) (s : State) : Host.Outcome State Fault Refusal :=
  fetchAs Classifier.mips ⟨w, .arithmeticImmediateOp, [rs]⟩ s

/-- `addi`, R121. -/
def execAddi (rs rt : RegNum) (imm : BitVec 16) (s : State) : Host.Outcome State Fault Refusal :=
  fetchImmediate (encode (.addi rs rt imm)) rs s

/-- `addiu`, R122. -/
def execAddiu (rs rt : RegNum) (imm : BitVec 16) (s : State) : Host.Outcome State Fault Refusal :=
  fetchImmediate (encode (.addiu rs rt imm)) rs s

/-- `slti`, R123. -/
def execSlti (rs rt : RegNum) (imm : BitVec 16) (s : State) : Host.Outcome State Fault Refusal :=
  fetchImmediate (encode (.slti rs rt imm)) rs s

/-- `sltiu`, R124. -/
def execSltiu (rs rt : RegNum) (imm : BitVec 16) (s : State) : Host.Outcome State Fault Refusal :=
  fetchImmediate (encode (.sltiu rs rt imm)) rs s

/-- `andi`, R125. -/
def execAndi (rs rt : RegNum) (imm : BitVec 16) (s : State) : Host.Outcome State Fault Refusal :=
  fetchImmediate (encode (.andi rs rt imm)) rs s

/-- `ori`, R126. -/
def execOri (rs rt : RegNum) (imm : BitVec 16) (s : State) : Host.Outcome State Fault Refusal :=
  fetchImmediate (encode (.ori rs rt imm)) rs s

/-- `lui`, R127. -/
def execLui (rs rt : RegNum) (imm : BitVec 16) (s : State) : Host.Outcome State Fault Refusal :=
  fetchImmediate (encode (.lui rs rt imm)) rs s

end Sys2Proof.Machine
end

