-- ==== Sys2Proof/Machine/Control.lean ====
section
/-! DEFINITION. The meanings of the branches, jumps and the halt, and of the Illegal words (42_control_halt R160 to R171). -/

namespace Sys2Proof.Machine

/-- A Branch newly fetched: sources rs and rt, both fields always (42_control_halt R170). -/
def fetchBranch (w : Word) (rs rt : RegNum) (s : State) : Host.Outcome State Fault Refusal :=
  fetchAs Classifier.mips ⟨w, .branch, [rs, rt]⟩ s

/-- A Jump newly fetched: no hazard role (42_control_halt R171). -/
def fetchJump (w : Word) (s : State) : Host.Outcome State Fault Refusal :=
  fetchAs Classifier.mips ⟨w, .jump, []⟩ s

/-- `beq`, R160. -/
def execBeq (rs rt : RegNum) (imm : BitVec 16) (s : State) : Host.Outcome State Fault Refusal :=
  fetchBranch (encode (.beq rs rt imm)) rs rt s

/-- `bne`, R161. -/
def execBne (rs rt : RegNum) (imm : BitVec 16) (s : State) : Host.Outcome State Fault Refusal :=
  fetchBranch (encode (.bne rs rt imm)) rs rt s

/-- `blez`, R162. -/
def execBlez (rs rt : RegNum) (imm : BitVec 16) (s : State) : Host.Outcome State Fault Refusal :=
  fetchBranch (encode (.blez rs rt imm)) rs rt s

/-- `bgtz`, R163. -/
def execBgtz (rs rt : RegNum) (imm : BitVec 16) (s : State) : Host.Outcome State Fault Refusal :=
  fetchBranch (encode (.bgtz rs rt imm)) rs rt s

/-- `j`, R164. -/
def execJ (target : BitVec 26) (s : State) : Host.Outcome State Fault Refusal :=
  fetchJump (encode (.j target)) s

/-- `jal`, R165. -/
def execJal (target : BitVec 26) (s : State) : Host.Outcome State Fault Refusal :=
  fetchJump (encode (.jal target)) s

/-- `jr`, R166: no source for hazard purposes, whatever its `rs` (R171). -/
def execJr (rs rt rd shamt : RegNum) (s : State) : Host.Outcome State Fault Refusal :=
  fetchAs Classifier.mips ⟨encode (.jr rs rt rd shamt), .jumpRegister, []⟩ s

/-- `halt`, R167: the word enters Fetch like any other; `halted` and `drain` follow the record's halt flag
(44_pipeline_engine R220). -/
def execHalt (s : State) : Host.Outcome State Fault Refusal :=
  fetchAs Classifier.mips ⟨encode .halt, .halt, []⟩ s

/-- Every word without a row, R168: it enters Fetch like any other; the flush follows the record's
`valid = false` (44_pipeline_engine R221). -/
def execIllegal (w : Word) (s : State) : Host.Outcome State Fault Refusal :=
  fetchAs Classifier.mips ⟨w, .illegal, []⟩ s

end Sys2Proof.Machine
end

