-- ==== Sys2Proof/Machine/LoadStore.lean ====
section
/-! DEFINITION. The meanings of the Load and Store instructions (41_load_store R140 to R149): the fetching cycle. The
data-cache lookup follows in the cycle in which the word enters Memory (`enterMemory`, R148). -/

namespace Sys2Proof.Machine

/-- A Load newly fetched: the record's address goes into the history, no source register
(41_load_store R147, R149). -/
def fetchLoad (w : Word) (s : State) : Host.Outcome State Fault Refusal :=
  fetchAs Classifier.mips ⟨w, .load, []⟩ s

/-- A Store newly fetched: the record's address goes into the history, no hazard role
(41_load_store R147, R149). -/
def fetchStore (w : Word) (s : State) : Host.Outcome State Fault Refusal :=
  fetchAs Classifier.mips ⟨w, .store, []⟩ s

/-- `lw`, R140. -/
def execLw (rs rt : RegNum) (imm : BitVec 16) (s : State) : Host.Outcome State Fault Refusal :=
  fetchLoad (encode (.lw rs rt imm)) s

/-- `lbu`, R141. -/
def execLbu (rs rt : RegNum) (imm : BitVec 16) (s : State) : Host.Outcome State Fault Refusal :=
  fetchLoad (encode (.lbu rs rt imm)) s

/-- `lhu`, R142. -/
def execLhu (rs rt : RegNum) (imm : BitVec 16) (s : State) : Host.Outcome State Fault Refusal :=
  fetchLoad (encode (.lhu rs rt imm)) s

/-- `sb`, R143. -/
def execSb (rs rt : RegNum) (imm : BitVec 16) (s : State) : Host.Outcome State Fault Refusal :=
  fetchStore (encode (.sb rs rt imm)) s

/-- `sh`, R144. -/
def execSh (rs rt : RegNum) (imm : BitVec 16) (s : State) : Host.Outcome State Fault Refusal :=
  fetchStore (encode (.sh rs rt imm)) s

/-- `sw`, R145. -/
def execSw (rs rt : RegNum) (imm : BitVec 16) (s : State) : Host.Outcome State Fault Refusal :=
  fetchStore (encode (.sw rs rt imm)) s

end Sys2Proof.Machine
end

