-- ==== Sys2Proof/Machine/Step.lean ====
section
/-! DEFINITION. One request for a cycle (44_pipeline_engine R210, R211, R235): it chooses the shape, and in a
fetching normal cycle decodes the record's word and runs that instruction's meaning. -/

namespace Sys2Proof.Machine

/-- The normal cycle that calls the executor (44_pipeline_engine R216, R217): the word of the record is
decoded and its instruction executed; a word without a row is Illegal (42_control_halt R168). -/
def stepFetch (s : State) : Host.Outcome State Fault Refusal :=
  match s.nextResponse with
  | .outOfRange => .next (abortCycle s)
  | .record r =>
    match decode r.word with
    | .ok i => exec i s
    | .error _ => execIllegal r.word s

/-- One step is one request for a cycle. With the status Halt or Error it changes nothing
(44_pipeline_engine R211). -/
def step (s : State) : Host.Outcome State Fault Refusal :=
  match s.status with
  | .halt => .next s
  | .error => .next s
  | .running =>
    match shapeOf s with
    | .flush => .next (flushCycle Classifier.mips s)
    | .stall c => .next (stallCycle Classifier.mips c s)
    | .drain => .next (drainCycle Classifier.mips s)
    | .fetch => stepFetch s

/-- `s` with the instruction of a table row's bits as the record the executor answers next, and with nothing
pending, so that the very next step runs it (log entry 10). -/
def State.withFetchWord (s : State) (nbits w : Nat) : State := s.readyFor (recordFor (tableWord nbits w))

end Sys2Proof.Machine
end

