-- ==== Sys2Proof/Machine/MemoryStore.lean ====
section
/-! DEFINITION. The raw memory store, an EXTERNAL collaborator (00_scope R4(a)): its contract is 20_memory R61
to R65. The block never calls it and holds no memory byte, so no field of `State` is a memory; the executor of
Machine/Executor.lean uses this one. -/

namespace Sys2Proof.Machine

/-- The bytes the store lists, by address. -/
abbrev Memory := List Host.Cell

/-- What an address that is not listed reads as: DESIGN CHOICE (unsafe; log entry 11). The start contents of the
store are not specified (70_reset_and_hazards R315). -/
def Memory.unlisted : Byte := 0

/-- The canonical form: addresses strictly rising, no entry equal to what an unlisted address reads as. -/
abbrev Memory.wf (m : Memory) : Prop :=
  m.Pairwise (fun x y => x.1 < y.1) ∧ ∀ c ∈ m, c.2 ≠ Memory.unlisted

/-- One byte of memory. -/
def Memory.read (a : Nat) : Memory → Byte
  | [] => Memory.unlisted
  | c :: m => if c.1 = a then c.2 else Memory.read a m

/-- One byte written, in canonical form: writing what an unlisted address reads as removes the entry. -/
def Memory.write (a : Nat) (v : Byte) : Memory → Memory
  | [] => if v = Memory.unlisted then [] else [(a, v)]
  | c :: m =>
    if a < c.1 then if v = Memory.unlisted then c :: m else (a, v) :: c :: m
    else if a = c.1 then if v = Memory.unlisted then m else (a, v) :: m
    else c :: Memory.write a v m

/-- `n` bytes from `a` as one number, most significant byte first (20_memory R63). -/
def Memory.readBytes (m : Memory) (a : Nat) : Nat → Nat
  | 0 => 0
  | n + 1 => m.readBytes a n * 256 + (m.read (a + n)).toNat

/-- The low `n` bytes of `v` written from `a`, most significant byte first (20_memory R63). -/
def Memory.writeBytes (m : Memory) (a : Nat) : Nat → Nat → Memory
  | 0, _ => m
  | n + 1, v => Memory.writeBytes (m.write (a + n) (BitVec.ofNat 8 v)) a n (v / 256)

/-- The access widths (20_memory R61, R64). -/
inductive Width where
  | byte
  | half
  | word
  deriving DecidableEq, Repr

/-- `widthBytes`, one of 1, 2, 4. -/
def Width.bytes : Width → Nat
  | .byte => 1
  | .half => 2
  | .word => 4

/-- The memory store: its configured window MEM_BASE, MEM_SIZE (20_memory R62) and its bytes. -/
structure MemoryStore where
  base : Nat
  size : Nat
  cells : Memory
  deriving DecidableEq, Repr

/-- All bytes of the access lie in the window `[MEM_BASE, MEM_BASE + MEM_SIZE)` (20_memory R61, R62). DESIGN
CHOICE (unsafe; log entry 16): there is no alignment check, which R65 leaves to the store. DEDUCED (unsafe; log entry 25): an access with some bytes inside and some outside is outside.
DESIGN CHOICE (unsafe; log entry 22): the spec bounds neither MEM_BASE nor MEM_SIZE, and says
nothing of an access whose bytes run past 0xFFFFFFFF in a window that reaches beyond it; here it neither wraps nor
fails, and its last bytes are the cells from address 2^32 up. -/
def MemoryStore.inWindow (m : MemoryStore) (a : Word) (w : Width) : Bool :=
  decide (m.base ≤ a.toNat ∧ a.toNat + w.bytes ≤ m.base + m.size)

/-- `getValue(address, widthBytes)` (20_memory R61), the value extended with zeros to a word. -/
def MemoryStore.getValue (m : MemoryStore) (a : Word) (w : Width) : Except Fault Word :=
  if m.inWindow a w then .ok (BitVec.ofNat 32 (m.cells.readBytes a.toNat w.bytes))
  else .error .outOfRangeMemoryAccess

/-- `setValue(address, widthBytes, value)` (20_memory R61): the low bytes of the value. -/
def MemoryStore.setValue (m : MemoryStore) (a : Word) (w : Width) (v : Word) : Except Fault MemoryStore :=
  if m.inWindow a w then .ok { m with cells := m.cells.writeBytes a.toNat w.bytes v.toNat }
  else .error .outOfRangeMemoryAccess

end Sys2Proof.Machine
end

