-- ==== Sys2Proof/Machine/Executor.lean ====
section
/-! DEFINITION. An orientation executor: ONE external FunctionalExecutor (00_scope R4(a), R7), with the effects that
the "Executor effect, for orientation" lines of 40_arithmetic, 41_load_store and 42_control_halt give. All of it
is PRESUMED (93_implementation_defined G5, G7, G8; log entries 13 to 16, 22 to 26). NO rule of the block rests on it:
`step` takes its responses from `State.input` and the free `Config.executor`, whatever executor made them.
What it is for: the executor's duties (30_encoding R99) can be met, and a program in memory gives a stream. -/

namespace Sys2Proof.Machine

/-- The executor's architectural state (10_state R34, R35, for orientation), and the MODEL's own counter of faults
taken, which indexes the free continuation addresses. -/
structure Executor where
  regs : Vector Word 32
  pc : Word
  mem : MemoryStore
  faults : Nat
  deriving DecidableEq, Repr

/-- `x[i]`; register 0 reads as zero (10_state R34, G8). -/
def Executor.reg (e : Executor) (i : RegNum) : Word := if i = 0 then 0 else e.regs[i.toNat]

/-- `x[i] <- v`; a write of register 0 is discarded (10_state R34, G8). -/
def Executor.setReg (e : Executor) (i : RegNum) (v : Word) : Executor :=
  if i = 0 then e else { e with regs := e.regs.set i.toNat v }

/-- What an instruction asks of the executor. -/
inductive Effect where
  /-- `x[r] <- v`, on to the next instruction. -/
  | write (r : RegNum) (v : Word)
  /-- Signed overflow: nothing is written (40_arithmetic R130). -/
  | overflow
  /-- `x[r] <- zext_32(MemRead(ea, n))`. -/
  | load (r : RegNum) (ea : Word) (n : Width)
  /-- `MemWrite(ea, n, v)`. -/
  | store (ea : Word) (n : Width) (v : Word)
  /-- `pc <- target`. -/
  | goto (target : Word)
  /-- `x[31] <- link; pc <- target`. -/
  | call (target link : Word)
  /-- The executor stops. -/
  | stop
  deriving DecidableEq, Repr

/-- A result that traps on signed overflow (40_arithmetic R130). -/
def trapping (o : Bool) (r : RegNum) (v : Word) : Effect := if o then .overflow else .write r v

/-- 1 or 0, the result of a comparison (40_arithmetic R119, R120, R123, R124). -/
def flagWord (b : Bool) : Word := if b then 1 else 0

/-- `sext_32(imm)` (30_encoding R95). -/
def sextImm (i : BitVec 16) : Word := i.signExtend 32

/-- `zext_32(imm)` (30_encoding R95). -/
def zextImm (i : BitVec 16) : Word := i.setWidth 32

/-- The address of the following instruction, `pc + 4`. DESIGN CHOICE (unsafe; log entry 24): the spec gives this sum
no modulus and says no wrap rule is imposed on the program counter (10_state R35); here it is taken modulo 2^32, so
the instruction after the one at 0xFFFFFFFC is at 0. -/
def Executor.nextPc (e : Executor) : Word := e.pc + 4

/-- A branch: the target `pc + 4 + (sext_32(imm) << 2)` if taken (42_control_halt R172). DESIGN CHOICE (unsafe; log
entry 24): both sums and the shift are taken modulo 2^32. -/
def Executor.branch (e : Executor) (taken : Bool) (i : BitVec 16) : Effect :=
  .goto (if taken then e.nextPc + (sextImm i <<< 2) else e.nextPc)

/-- The jump target, bits 31 to 28 of `pc + 4`, then the field, then 00 (42_control_halt R172); `pc + 4` is
`nextPc`, modulo 2^32 (log entry 24). -/
def Executor.jumpTarget (e : Executor) (t : BitVec 26) : Word := e.nextPc.extractLsb' 28 4 ++ t ++ 0#2

/-- The "Executor effect" line of each instruction (40_arithmetic R110 to R127, 41_load_store R140 to R146,
42_control_halt R160 to R167). -/
def Executor.effect (e : Executor) : Instr → Effect
  | .halt => .stop
  | .sll _ rt rd sh => .write rd (e.reg rt <<< sh.toNat)
  | .srl _ rt rd sh => .write rd (e.reg rt >>> sh.toNat)
  | .jr rs _ _ _ => .goto (e.reg rs)
  | .add rs rt rd _ => trapping ((e.reg rs).saddOverflow (e.reg rt)) rd (e.reg rs + e.reg rt)
  | .addu rs rt rd _ => .write rd (e.reg rs + e.reg rt)
  | .sub rs rt rd _ => trapping ((e.reg rs).ssubOverflow (e.reg rt)) rd (e.reg rs - e.reg rt)
  | .subu rs rt rd _ => .write rd (e.reg rs - e.reg rt)
  | .and rs rt rd _ => .write rd (e.reg rs &&& e.reg rt)
  | .or rs rt rd _ => .write rd (e.reg rs ||| e.reg rt)
  | .nor rs rt rd _ => .write rd (~~~(e.reg rs ||| e.reg rt))
  | .slt rs rt rd _ => .write rd (flagWord ((e.reg rs).slt (e.reg rt)))
  | .sltu rs rt rd _ => .write rd (flagWord ((e.reg rs).ult (e.reg rt)))
  | .j t => .goto (e.jumpTarget t)
  | .jal t => .call (e.jumpTarget t) e.nextPc
  | .beq rs rt i => e.branch (e.reg rs == e.reg rt) i
  | .bne rs rt i => e.branch (e.reg rs != e.reg rt) i
  | .blez rs _ i => e.branch ((e.reg rs).sle 0) i
  | .bgtz rs _ i => e.branch (!(e.reg rs).sle 0) i
  | .addi rs rt i => trapping ((e.reg rs).saddOverflow (sextImm i)) rt (e.reg rs + sextImm i)
  | .addiu rs rt i => .write rt (e.reg rs + sextImm i)
  | .slti rs rt i => .write rt (flagWord ((e.reg rs).slt (sextImm i)))
  | .sltiu rs rt i => .write rt (flagWord ((e.reg rs).ult (sextImm i)))
  | .andi rs rt i => .write rt (e.reg rs &&& zextImm i)
  | .ori rs rt i => .write rt (e.reg rs ||| zextImm i)
  | .lui _ rt i => .write rt (zextImm i <<< 16)
  | .lw rs rt i => .load rt (e.reg rs + sextImm i) .word
  | .lbu rs rt i => .load rt (e.reg rs + sextImm i) .byte
  | .lhu rs rt i => .load rt (e.reg rs + sextImm i) .half
  | .sb rs rt i => .store (e.reg rs + sextImm i) .byte (e.reg rt)
  | .sh rs rt i => .store (e.reg rs + sextImm i) .half (e.reg rt)
  | .sw rs rt i => .store (e.reg rs + sextImm i) .word (e.reg rt)

/-- After a recoverable fault the executor continues at a free address: the source names none
(60_exceptions R289; log entry 15). DESIGN CHOICE (unsafe; log entry 26): what else the fault does to the executor is left
open (42_control_halt R168 does not give it, 60_exceptions R289 has 'whatever it is'; of an overflow 40_arithmetic
R130 gives that its result is not written); here it changes no register and no byte of memory. -/
def Executor.trap (e : Executor) : Executor := { e with pc := Config.faultTarget e.faults, faults := e.faults + 1 }

/-- The record of a word fetched at the program counter (10_state R38). -/
def Executor.recordOf (e : Executor) (w : Word) (a : Touched) (valid overflow halt : Bool) : Response :=
  .record { pc := e.pc, word := w, addr := a, valid := valid, overflow := overflow, halt := halt }

/-- The effect applied: the response and the executor after it. An access outside the window is reported in
place of the record (60_exceptions R283). -/
def Executor.apply (e : Executor) (w : Word) : Effect → Response × Executor
  | .write r v => (e.recordOf w .noAddr true false false, { e.setReg r v with pc := e.nextPc })
  | .overflow => (e.recordOf w .noAddr true true false, e.trap)
  | .load r ea n =>
    match e.mem.getValue ea n with
    | .ok v => (e.recordOf w (.addr ea) true false false, { e.setReg r v with pc := e.nextPc })
    | .error _ => (.outOfRange, e)
  | .store ea n v =>
    match e.mem.setValue ea n v with
    | .ok m => (e.recordOf w (.addr ea) true false false, { e with mem := m, pc := e.nextPc })
    | .error _ => (.outOfRange, e)
  | .goto t => (e.recordOf w .noAddr true false false, { e with pc := t })
  | .call t l => (e.recordOf w .noAddr true false false, { e.setReg 31 l with pc := t })
  | .stop => (e.recordOf w .noAddr true false true, e)

/-- `executeNext()`: exactly one instruction, fetched from the memory store, and one response (00_scope R7). DESIGN
CHOICE (unsafe; log entry 23): whether a program may modify its own code is the executor's affair (20_memory R72);
this one fetches from the bytes it stores to, so a store changes a word fetched later. -/
def Executor.executeNext (e : Executor) : Response × Executor :=
  match e.mem.getValue e.pc .word with
  | .error _ => (.outOfRange, e)
  | .ok w =>
    match decode w with
    | .ok i => e.apply w (e.effect i)
    | .error _ => (e.recordOf w .noAddr false false false, e.trap)

/-- The responses of the next `n` calls, in order. -/
def Executor.responses : Nat → Executor → List Response
  | 0, _ => []
  | n + 1, e => e.executeNext.1 :: Executor.responses n e.executeNext.2

/-- The block with the next `n` responses of an executor prepared. -/
def State.fedBy (s : State) (n : Nat) (e : Executor) : State := { s with input := e.responses n }

end Sys2Proof.Machine
end

