-- ==== Sys2Proof/Machine/Run.lean ====
section
/-! DEFINITION. What the caller asks of the block: a bounded run and a run to halt (44_pipeline_engine R234), and
the statistics record (45_statistics R270, R273). -/

namespace Sys2Proof.Machine

/-- What a run request returns (10_state R27, 44_pipeline_engine R234). -/
inductive RunResult where
  | success
  | halt
  | error
  deriving DecidableEq, Repr

/-- The result the status stands for at the end of a run: Success is the loop's, not the block's
(92_eei_decisions D36). -/
def Status.result : Status → RunResult
  | .running => .success
  | .halt => .halt
  | .error => .error

/-- `runCycles(n)`: the transition until `n` cycles have completed or the status is no longer Running
(44_pipeline_engine R234). A request that does not complete a cycle leaves a terminal status, so `n` requests
are enough. A fault or refusal of `step` would end the run. -/
def runCycles : Nat → State → Host.Outcome (RunResult × State) Fault Refusal
  | 0, s => .next (s.status.result, s)
  | n + 1, s =>
    match s.status with
    | .running =>
      match step s with
      | .next t => runCycles n t
      | .fault f => .fault f
      | .refused r => .refused r
    | .halt => .next (.halt, s)
    | .error => .next (.error, s)

/-- `runToHalt()` within `fuel` requests (44_pipeline_engine R234): none while the status is still Running
when the fuel is used up. The request itself has no bound and need not return (93 U16; log entry 12). -/
def runToHalt : Nat → State → Host.Outcome (Option (RunResult × State)) Fault Refusal
  | 0, s =>
    match s.status with
    | .running => .next none
    | .halt => .next (some (.halt, s))
    | .error => .next (some (.error, s))
  | n + 1, s =>
    match s.status with
    | .running =>
      match step s with
      | .next t => runToHalt n t
      | .fault f => .fault f
      | .refused r => .refused r
    | .halt => .next (some (.halt, s))
    | .error => .next (some (.error, s))

/-- The statistics record (45_statistics R270). -/
structure Statistics where
  dynInstr : Nat
  cycles : Nat
  icHits : Nat
  icMisses : Nat
  dcHits : Nat
  dcMisses : Nat
  stallIMiss : Nat
  stallDMiss : Nat
  stallDec : Nat
  stallEx : Nat
  flushCycles : Nat
  deriving DecidableEq, Repr

/-- The read-only snapshot of the statistics (45_statistics R273): it changes no state. -/
def State.statistics (s : State) : Statistics where
  dynInstr := s.stats.dynInstr
  cycles := s.cycle
  icHits := s.icache.hits
  icMisses := s.icache.misses
  dcHits := s.dcache.hits
  dcMisses := s.dcache.misses
  stallIMiss := s.stats.stallIMiss
  stallDMiss := s.stats.stallDMiss
  stallDec := s.stats.stallDec
  stallEx := s.stats.stallEx
  flushCycles := s.stats.flushCycles

end Sys2Proof.Machine
end

