-- ==== Sys2Proof/Machine/Reference.lean ====
section
/-! DEFINITION. The whole transition as 44_pipeline_engine R237 writes it down, one function for any classifier
and any response, with the default parameters. It is the normative summary against which `step`, which goes
through the decoder, the dispatch and the instructions' meanings, is compared. -/

namespace Sys2Proof.Machine.Reference

/-- `shiftAll(new, newAddr)` of R237. -/
def shiftAll (new : Slot) (newAddr : Touched) (s : State) : State :=
  { s with
    slot := ⟨new, s.slot.fetch, s.slot.decode, s.slot.execute, s.slot.memory⟩
    hist := ⟨newAddr, s.hist.fetch, s.hist.decode, s.hist.execute, s.hist.memory⟩
    dMissInMem := false }

/-- `enterMemory()` of R237. -/
def enterMemory (K : Classifier) (s : State) : State :=
  match s.slot.memory, s.hist.memory with
  | .instr w, .addr a =>
    if K.classify w = .load ∨ K.classify w = .store then
      let r := s.dcache.access a (K.classify w == .store)
      if r.1 = true then { s with dcache := r.2 }
      else
        { s with
          dcache := r.2
          stall := { s.stall with dMiss := s.stall.dMiss + s.dcache.cfg.missLatencyCycles }
          dMissInMem := true }
    else s
  | _, _ => s

/-- Lines 5 to 7 of R237: a flush cycle up to the drain accounting. -/
def flushPart (K : Classifier) (s : State) : State :=
  let s : State := enterMemory K (shiftAll .bubble .noAddr s)
  { s with flush := s.flush - 1, stats := { s.stats with flushCycles := s.stats.flushCycles + 1 } }

/-- The stall cycle of R237 for the first nonzero counter, up to the cycle count. -/
def stallPart (K : Classifier) (s : State) : State :=
  let freeze := s.stall.iMiss = 0 ∧ s.stall.dMiss > 0 ∧ s.dMissInMem = true
  let moved :=
    if freeze then
      { s with
        slot := { s.slot with writeback := .bubble }
        hist := { s.hist with writeback := .noAddr } }
    else
      enterMemory K
        { s with
          slot := ⟨s.slot.fetch, s.slot.decode, .bubble, s.slot.execute, s.slot.memory⟩
          hist := ⟨s.hist.fetch, s.hist.decode, .noAddr, s.hist.execute, s.hist.memory⟩
          dMissInMem := false }
  if s.stall.iMiss > 0 then
    { moved with
      stall := { moved.stall with iMiss := moved.stall.iMiss - 1 }
      stats := { moved.stats with stallIMiss := moved.stats.stallIMiss + 1 } }
  else if s.stall.dMiss > 0 then
    { moved with
      stall := { moved.stall with dMiss := moved.stall.dMiss - 1 }
      stats := { moved.stats with stallDMiss := moved.stats.stallDMiss + 1 } }
  else if s.stall.decHaz > 0 then
    { moved with
      stall := { moved.stall with decHaz := moved.stall.decHaz - 1 }
      stats := { moved.stats with stallDec := moved.stats.stallDec + 1 } }
  else
    { moved with
      stall := { moved.stall with exHaz := moved.stall.exHaz - 1 }
      stats := { moved.stats with stallEx := moved.stats.stallEx + 1 } }

/-- `isArithmetic` of R237 (30_encoding R87). -/
abbrev isArith (k : OpKind) : Prop := k = .arithmeticOp ∨ k = .arithmeticImmediateOp

/-- The lines of R237 on the flags of the record. -/
def flagLines (r : Record) (s : State) : State :=
  if r.halt then { s with halted := true, drain := 4 }
  else if !r.valid then { s with flush := s.flush + 2 }
  else if r.overflow then { s with flush := s.flush + 3 }
  else s

/-- The lines of R237 on the hazards of the word `w` just shifted in. -/
def hazardLines (K : Classifier) (w : Word) (s : State) : State :=
  match s.slot.decode with
  | .instr wd =>
    let k := K.classify w
    let hit : Bool := (K.destReg wd).any (K.srcRegs w).contains
    if k = .branch ∧ isArith (K.classify wd) ∧ hit = true then
      { s with stall := { s.stall with exHaz := s.stall.exHaz + 1 } }
    else if k = .branch ∧ K.classify wd = .load ∧ hit = true then
      { s with stall := { s.stall with decHaz := s.stall.decHaz + 2 } }
    else if isArith k ∧ K.classify wd = .load ∧ hit = true then
      { s with stall := { s.stall with exHaz := s.stall.exHaz + 1 } }
    else s
  | .bubble => s

/-- The line of R237 on the instruction-cache lookup. -/
def lookupLine (pc : Word) (s : State) : State :=
  let look := s.icache.access pc false
  if look.1 = true then { s with icache := look.2 }
  else
    { s with
      icache := look.2
      stall := { s.stall with iMiss := s.stall.iMiss + s.icache.cfg.missLatencyCycles } }

/-- The part of R237 for a record `r`, up to the cycle count. -/
def recordPart (K : Classifier) (r : Record) (s : State) : State :=
  let s : State := { s with stats := { s.stats with dynInstr := s.stats.dynInstr + 1 } }
  let k := K.classify r.word
  let s : State := shiftAll (.instr r.word) (if k = .load ∨ k = .store then r.addr else .noAddr) s
  enterMemory K (lookupLine r.pc (hazardLines K r.word (flagLines r s)))

/-- The end of every completed cycle of R237. -/
def endPart (wasHalted bubbleIntoFetch : Bool) (s : State) : State :=
  let s : State := if wasHalted && bubbleIntoFetch then { s with drain := s.drain - 1 } else s
  let s : State := { s with cycle := s.cycle + 1 }
  let s : State := { s with trace := s.trace ++ [{ cycleNumber := s.cycle, slot := s.slot }] }
  if wasHalted && bubbleIntoFetch && s.drain == 0 then { s with status := .halt } else s

/-- `Cycle()` of R237, `resp` being what `executeNext()` answers if it is called. -/
def cycle (K : Classifier) (resp : Response) (s : State) : State :=
  if s.status ≠ .running then s
  else if s.flush > 0 then endPart s.halted true (flushPart K s)
  else if s.stall.iMiss > 0 ∨ s.stall.dMiss > 0 ∨ s.stall.decHaz > 0 ∨ s.stall.exHaz > 0 then
    endPart s.halted false (stallPart K s)
  else if s.halted then endPart true true (enterMemory K (shiftAll .bubble .noAddr s))
  else
    match resp with
    | .outOfRange => { s.callExecutor with status := .error }
    | .record r => endPart false false (recordPart K r s.callExecutor)

end Sys2Proof.Machine.Reference
end

