-- ==== Sys2Proof/WellFormed.lean ====
section
/-! DEFINITION. The checks on what reaches the block from outside. A term of `Instr` needs none: its field
widths are in its type, and every term has an encoding. What can be ill-formed is the construction's
configuration (43_cache_model R181) and a record whose flags or address disagree with its word
(30_encoding R99): the executor's duties, launch premises of a claim and never of the transition, which is
defined on every record (93 U12, U13). -/

namespace Sys2Proof

/-- Both configurations are valid (60_exceptions R284). -/
def Setup.wellFormed (c : Setup) : Bool := Machine.validConfig c.icfg && Machine.validConfig c.dcfg

/-- `valid = false` exactly for an Illegal word (10_state R38, 30_encoding R99). -/
def Record.validOk (K : Classifier) (r : Record) : Bool := r.valid == (K.classify r.word != .illegal)

/-- `halt = true` exactly for the halt sentinel (10_state R38, 30_encoding R99). -/
def Record.haltOk (K : Classifier) (r : Record) : Bool := r.halt == (K.classify r.word == .halt)

/-- `overflow = true` only on an arithmetic word (30_encoding R99). -/
def Record.overflowOk (K : Classifier) (r : Record) : Bool := !r.overflow || (K.classify r.word).isArithmetic

/-- An address exactly on a load or store (10_state R38, 30_encoding R99, 41_load_store R147). -/
def Record.addrOk (K : Classifier) (r : Record) : Bool := (r.addr != .noAddr) == (K.classify r.word).isMem

/-- The duties of the executor towards the block (10_state R38, 30_encoding R99). -/
def Record.wellFormed (K : Classifier) (r : Record) : Bool :=
  r.validOk K && r.haltOk K && r.overflowOk K && r.addrOk K

/-- A response is well-formed: the out-of-range report always, a record if it keeps the duties. -/
def Response.wellFormed (K : Classifier) : Response → Bool
  | .record r => r.wellFormed K
  | .outOfRange => true

end Sys2Proof
end

