-- ==== Sys2Proof/Safety.lean ====
section
/-! DEFINITION. What the claims are stated in: the invariants of the caches (43_cache_model R191 to R194) and of
the engine (44_pipeline_engine R236), the ghost counts of the accounting identities (45_statistics R274), and
the effect of a fetching cycle written out field by field. None of it is part of the machine. -/

namespace Sys2Proof.Machine

/-! ### Cache invariants -/

/-- The recency ranks of the valid ways of a set, in way order. -/
def validRanks (ws : List Way) : List Nat := (ws.filter Way.valid).map Way.rank

/-- The tags of the valid ways of a set, in way order. -/
def validTags (ws : List Way) : List Nat := (ws.filter Way.valid).map Way.tag

/-- The LRU invariant of one set (10_state R31, 43_cache_model R191): the ranks of the valid ways are a
permutation of 1..numValidWays. -/
abbrev LruRanks (ws : List Way) : Prop := (validRanks ws).Perm (List.range' 1 (ws.countP Way.valid))

/-- What holds of every set of a cache configured `c`: the number of ways, the LRU invariant, distinct tags
(43_cache_model R192), the valid ways first (R194), tags in range and invalid ways at their filler
(10_state R30). -/
structure SetOk (c : CacheConfig) (ws : List Way) : Prop where
  ways : ws.length = c.ways
  ranks : LruRanks ws
  tags : (validTags ws).Nodup
  filled : ws.Pairwise fun x y => y.valid = true → x.valid = true
  range : ∀ w ∈ ws, w.tag < 2 ^ (32 - offsetBits c - indexBits c)
  filler : ∀ w ∈ ws, w.valid = false → w = Way.invalid

/-- What holds of a cache: a valid configuration, its number of sets, and every set in order. -/
structure CacheOk (c : Cache) : Prop where
  config : validConfig c.cfg = true
  sets : c.sets.length = setCount c.cfg
  each : ∀ ws ∈ c.sets, SetOk c.cfg ws

/-- The block of an address is resident in a cache: some valid way of its set holds its tag. -/
def Cache.resident (c : Cache) (a : Word) : Bool :=
  (c.sets.getD (setIndex c.cfg a) []).any (Way.holds (tagOf c.cfg a))

/-! ### Engine invariants -/

/-- Where the word that came with the halt flag stands when `n` drain cycles remain: in the stage `4 - n`, with
Bubbles in every younger stage (44_pipeline_engine R232). -/
def haltSlot (n : Nat) (p : Pipe Slot) : Slot :=
  match n with
  | 0 => p.writeback
  | 1 => p.memory
  | 2 => p.execute
  | 3 => p.decode
  | _ => p.fetch

/-- The stages younger than that one hold Bubbles. -/
def youngerEmpty (n : Nat) (p : Pipe Slot) : Prop :=
  (n ≤ 3 → p.fetch = .bubble) ∧ (n ≤ 2 → p.decode = .bubble) ∧
  (n ≤ 1 → p.execute = .bubble) ∧ (n = 0 → p.memory = .bubble)

/-- The history agrees with the slots: an address only beside a load or store (10_state R22). -/
def HistOk (K : Classifier) (s : State) : Prop :=
  ∀ st a, s.hist.get st = .addr a → ((s.slot.get st).kind K).isMem = true

/-- The halt and drain bookkeeping (10_state R26, R27, 44_pipeline_engine R232, R236(b), R236(c)). -/
structure DrainOk (s : State) : Prop where
  notHalted : s.halted = false → s.drain = 0
  running : s.status = .running → s.halted = true → 1 ≤ s.drain ∧ s.drain ≤ 4
  ended : s.status = .halt → s.halted = true ∧ s.drain = 0 ∧ s.stall = ⟨0, 0, 0, 0⟩
  noFlush : s.halted = true → s.flush = 0
  occupied : s.halted = true → haltSlot s.drain s.slot ≠ .bubble
  younger : s.halted = true → youngerEmpty s.drain s.slot
  onlyFreezes : s.halted = true → s.drain ≤ 3 →
    s.stall.iMiss = 0 ∧ s.stall.decHaz = 0 ∧ s.stall.exHaz = 0 ∧ (s.stall.dMiss ≠ 0 → s.dMissInMem = true)

/-- The invariant of the block. -/
structure Inv (K : Classifier) (s : State) : Prop where
  icache : CacheOk s.icache
  dcache : CacheOk s.dcache
  hist : HistOk K s
  missInMem : s.dMissInMem = true → (s.slot.memory.kind K).isMem = true
  drain : DrainOk s

/-- While the halt is on its way, the word at its place is the halt sentinel. -/
def HaltWordInPlace (K : Classifier) (s : State) : Prop :=
  s.halted = true → (haltSlot s.drain s.slot).kind K = .halt

/-- The words in a list of slots, Bubbles left out (44_pipeline_engine R236(e)). -/
def wordsOf (l : List Slot) : List Word :=
  l.filterMap fun p =>
    match p with
    | .bubble => none
    | .instr w => some w

/-! ### The ghost counts of 45_statistics R274 -/

/-- How often what has happened since reset: normal cycles, firings of each hazard rule, faulting records, and
instructions looked up in the data cache. No part of the machine reads it. -/
structure Tally where
  normal : Nat := 0
  opBranch : Nat := 0
  loadBranch : Nat := 0
  loadOp : Nat := 0
  execLoadBranch : Nat := 0
  overflow : Nat := 0
  illegal : Nat := 0
  entered : Nat := 0
  deriving DecidableEq, Repr

/-- Does the content of Execute move into Memory in a cycle of this shape? Always, but in a freeze
(44_pipeline_engine R229). -/
def movesExecute (s : State) : Bool :=
  match shapeOf s with
  | .stall .dMiss => !s.dMissInMem
  | .stall .iMiss | .stall .decHaz | .stall .exHaz | .flush | .drain | .fetch => true

/-- Is the content of Execute a load or store with an address? -/
def executeHasAddr (K : Classifier) (s : State) : Bool :=
  (s.slot.execute.kind K).isMem && s.hist.execute != .noAddr

/-- The count of one data-cache lookup, if this cycle makes one. -/
def Tally.enter (K : Classifier) (s : State) (n : Tally) : Tally :=
  if movesExecute s && executeHasAddr K s then { n with entered := n.entered + 1 } else n

/-- The count of the fault of a record. -/
def Tally.fault (r : Record) (n : Tally) : Tally :=
  match recordFault r with
  | some .illegalInstruction => { n with illegal := n.illegal + 1 }
  | some .arithmeticOverflow => { n with overflow := n.overflow + 1 }
  | none => n

/-- The count of the hazard rule that fires for the word `w` fetched behind the slots `s` holds. -/
def Tally.hazard (K : Classifier) (w : Word) (s : State) (n : Tally) : Tally :=
  match hazardOf K (Fetched.ofWord K w) s.slot.fetch s.slot.decode with
  | .opBranch => { n with opBranch := n.opBranch + 1 }
  | .loadBranch => { n with loadBranch := n.loadBranch + 1 }
  | .loadOp => { n with loadOp := n.loadOp + 1 }
  | .execLoadBranch => { n with execLoadBranch := n.execLoadBranch + 1 }
  | .none => n

/-- The counts after one request for a cycle in the state `s`. -/
def Tally.after (K : Classifier) (s : State) (n : Tally) : Tally :=
  match s.status with
  | .halt | .error => n
  | .running =>
    match shapeOf s with
    | .flush | .stall _ => n.enter K s
    | .drain => { n.enter K s with normal := n.normal + 1 }
    | .fetch =>
      match s.nextResponse with
      | .outOfRange => n
      | .record r => { ((n.enter K s).fault r).hazard K r.word s with normal := n.normal + 1 }

/-- The identities of 45_statistics R274 between the counts, the counters and the statistics. -/
structure Accounts (n : Tally) (s : State) : Prop where
  /-- (a) -/
  cycles : s.cycle = n.normal + s.stats.stallIMiss + s.stats.stallDMiss + s.stats.stallDec + s.stats.stallEx
    + s.stats.flushCycles
  /-- (b) -/
  fetches : s.stats.dynInstr = s.icache.hits + s.icache.misses
  /-- (b), (e): the normal cycles that did not fetch are the drain cycles done. -/
  drained : n.normal = s.stats.dynInstr + (if s.halted then 4 - s.drain else 0)
  /-- (c) -/
  lookups : s.dcache.hits + s.dcache.misses = n.entered
  /-- (d) -/
  iMiss : s.stats.stallIMiss + s.stall.iMiss = s.icache.misses * s.icache.cfg.missLatencyCycles
  /-- (d) -/
  dMiss : s.stats.stallDMiss + s.stall.dMiss = s.dcache.misses * s.dcache.cfg.missLatencyCycles
  /-- (d), with the OPEN rule of 44_pipeline_engine R227 counted in. -/
  decHaz : s.stats.stallDec + s.stall.decHaz = 2 * n.loadBranch + s.params.execLoadBranchStall * n.execLoadBranch
  /-- (d) -/
  exHaz : s.stats.stallEx + s.stall.exHaz = n.opBranch + n.loadOp
  /-- (d) -/
  flush : s.stats.flushCycles + s.flush = 3 * n.overflow + 2 * n.illegal

/-! ### The effect of a cycle, written out -/

/-- What the instruction that enters Memory does to the data side (44_pipeline_engine R229): with `sl` and `ad`
the slot and the history entry that enter Memory and `c` the data cache, the lookup is of `ad` in `c` if `sl`
holds a load or store with an address, and there is none otherwise. The result is the data cache after it, the
cycles it schedules, and whether it missed. -/
def entering (K : Classifier) (c : Cache) (sl : Slot) (ad : Touched) : Cache × Nat × Bool :=
  match sl, ad with
  | .instr w, .addr a =>
    if K.classify w = .load ∨ K.classify w = .store then
      let r := c.access a (decide (K.classify w = .store))
      (r.2, if r.1 then 0 else c.cfg.missLatencyCycles, !r.1)
    else (c, 0, false)
  | _, _ => (c, 0, false)

/-- The producer in a slot: a word of one of the kinds `ks` whose destination register is in `srcs`. -/
def producerIn (K : Classifier) (ks : List OpKind) (srcs : List RegNum) (p : Slot) : Bool :=
  match p with
  | .bubble => false
  | .instr w => ks.contains (K.classify w) && (K.destReg w).any srcs.contains

/-- The arithmetic kinds (30_encoding R87). -/
def arithmeticKinds : List OpKind := [.arithmeticOp, .arithmeticImmediateOp]

/-- The executeHazard cycles scheduled when a word of kind `k` with sources `srcs` is fetched behind the slot
`dec` (44_pipeline_engine R223, R225). -/
def exHazardCycles (K : Classifier) (k : OpKind) (srcs : List RegNum) (dec : Slot) : Nat :=
  if k = .branch ∧ producerIn K arithmeticKinds srcs dec then 1
  else if k ∈ arithmeticKinds ∧ producerIn K [.load] srcs dec then 1
  else 0

/-- The decodeHazard cycles scheduled when a word of kind `k` with sources `srcs` is fetched behind the slots `dec`
and, two places back, `exe` (44_pipeline_engine R224, and the OPEN rule R227 with `n` cycles, evaluated behind a
Bubble too: DEDUCED, log entry 17). -/
def decHazardCycles (K : Classifier) (n : Nat) (k : OpKind) (srcs : List RegNum) (dec exe : Slot) : Nat :=
  if k = .branch ∧ producerIn K arithmeticKinds srcs dec then 0
  else if k = .branch ∧ producerIn K [.load] srcs dec then 2
  else if k = .branch ∧ producerIn K [.load] srcs exe then n
  else 0

/-- The whole effect of the normal cycle that fetches the word `w` of kind `k` with hazard sources `srcs` by a record
with address `pc` and history entry `ad`: every field of the state after it, the unchanged ones included
(44_pipeline_engine R216 to R233). `fl`, `ha` and `dr` are what the record's flags make of `flush`, `halted`
and `drain` (R220, R221). The block holds no register file, no program counter and no memory byte (10_state R34, R35,
20_memory), so these fields are the whole frame. -/
structure FetchEffect (K : Classifier) (w : Word) (k : OpKind) (srcs : List RegNum) (pc : Word) (ad : Touched)
    (fl : Nat) (ha : Bool) (dr : Nat) (s t : State) : Prop where
  params : t.params = s.params
  slot : t.slot = ⟨.instr w, s.slot.fetch, s.slot.decode, s.slot.execute, s.slot.memory⟩
  hist : t.hist = ⟨ad, s.hist.fetch, s.hist.decode, s.hist.execute, s.hist.memory⟩
  iMiss : t.stall.iMiss = s.stall.iMiss +
    (if (s.icache.access pc false).1 then 0 else s.icache.cfg.missLatencyCycles)
  dMiss : t.stall.dMiss = s.stall.dMiss + (entering K s.dcache s.slot.execute s.hist.execute).2.1
  decHaz : t.stall.decHaz = s.stall.decHaz +
    decHazardCycles K s.params.execLoadBranchStall k srcs s.slot.fetch s.slot.decode
  exHaz : t.stall.exHaz = s.stall.exHaz + exHazardCycles K k srcs s.slot.fetch
  flush : t.flush = fl
  dMissInMem : t.dMissInMem = (entering K s.dcache s.slot.execute s.hist.execute).2.2
  halted : t.halted = ha
  drain : t.drain = dr
  status : t.status = s.status
  cycle : t.cycle = s.cycle + 1
  icache : t.icache = (s.icache.access pc false).2
  dcache : t.dcache = (entering K s.dcache s.slot.execute s.hist.execute).1
  stats : t.stats = { s.stats with dynInstr := s.stats.dynInstr + 1 }
  trace : t.trace = s.trace ++ [⟨s.cycle + 1, t.slot⟩]
  input : t.input = s.input.tail
  calls : t.calls = s.calls + 1

/-! ### The table of 30_encoding R92, transcribed -/

/-- One row of R92: the mnemonic, match, mask and kind. -/
structure TableRow where
  mnemonic : String
  pattern : Word
  mask : Word
  kind : OpKind
  deriving DecidableEq, Repr

/-- The rows of R92 in its order. -/
def tableRows : List TableRow := [
  ⟨"halt", 0xFEEDFEED#32, 0xFFFFFFFF#32, .halt⟩,
  ⟨"sll", 0x00000000#32, 0xFC00003F#32, .arithmeticOp⟩,
  ⟨"srl", 0x00000002#32, 0xFC00003F#32, .arithmeticOp⟩,
  ⟨"jr", 0x00000008#32, 0xFC00003F#32, .jumpRegister⟩,
  ⟨"add", 0x00000020#32, 0xFC00003F#32, .arithmeticOp⟩,
  ⟨"addu", 0x00000021#32, 0xFC00003F#32, .arithmeticOp⟩,
  ⟨"sub", 0x00000022#32, 0xFC00003F#32, .arithmeticOp⟩,
  ⟨"subu", 0x00000023#32, 0xFC00003F#32, .arithmeticOp⟩,
  ⟨"and", 0x00000024#32, 0xFC00003F#32, .arithmeticOp⟩,
  ⟨"or", 0x00000025#32, 0xFC00003F#32, .arithmeticOp⟩,
  ⟨"nor", 0x00000027#32, 0xFC00003F#32, .arithmeticOp⟩,
  ⟨"slt", 0x0000002A#32, 0xFC00003F#32, .arithmeticOp⟩,
  ⟨"sltu", 0x0000002B#32, 0xFC00003F#32, .arithmeticOp⟩,
  ⟨"j", 0x08000000#32, 0xFC000000#32, .jump⟩,
  ⟨"jal", 0x0C000000#32, 0xFC000000#32, .jump⟩,
  ⟨"beq", 0x10000000#32, 0xFC000000#32, .branch⟩,
  ⟨"bne", 0x14000000#32, 0xFC000000#32, .branch⟩,
  ⟨"blez", 0x18000000#32, 0xFC000000#32, .branch⟩,
  ⟨"bgtz", 0x1C000000#32, 0xFC000000#32, .branch⟩,
  ⟨"addi", 0x20000000#32, 0xFC000000#32, .arithmeticImmediateOp⟩,
  ⟨"addiu", 0x24000000#32, 0xFC000000#32, .arithmeticImmediateOp⟩,
  ⟨"slti", 0x28000000#32, 0xFC000000#32, .arithmeticImmediateOp⟩,
  ⟨"sltiu", 0x2C000000#32, 0xFC000000#32, .arithmeticImmediateOp⟩,
  ⟨"andi", 0x30000000#32, 0xFC000000#32, .arithmeticImmediateOp⟩,
  ⟨"ori", 0x34000000#32, 0xFC000000#32, .arithmeticImmediateOp⟩,
  ⟨"lui", 0x3C000000#32, 0xFC000000#32, .arithmeticImmediateOp⟩,
  ⟨"lw", 0x8C000000#32, 0xFC000000#32, .load⟩,
  ⟨"lbu", 0x90000000#32, 0xFC000000#32, .load⟩,
  ⟨"lhu", 0x94000000#32, 0xFC000000#32, .load⟩,
  ⟨"sb", 0xA0000000#32, 0xFC000000#32, .store⟩,
  ⟨"sh", 0xA4000000#32, 0xFC000000#32, .store⟩,
  ⟨"sw", 0xAC000000#32, 0xFC000000#32, .store⟩]

/-- The row selects the word: `w & mask = match` (R92). -/
def TableRow.selects (r : TableRow) (w : Word) : Bool := w &&& r.mask == r.pattern

/-- The mnemonic of an instruction in R92. -/
def mnemonicOf : Instr → String
  | .halt => "halt"
  | .sll _ _ _ _ => "sll"
  | .srl _ _ _ _ => "srl"
  | .jr _ _ _ _ => "jr"
  | .add _ _ _ _ => "add"
  | .addu _ _ _ _ => "addu"
  | .sub _ _ _ _ => "sub"
  | .subu _ _ _ _ => "subu"
  | .and _ _ _ _ => "and"
  | .or _ _ _ _ => "or"
  | .nor _ _ _ _ => "nor"
  | .slt _ _ _ _ => "slt"
  | .sltu _ _ _ _ => "sltu"
  | .j _ => "j"
  | .jal _ => "jal"
  | .beq _ _ _ => "beq"
  | .bne _ _ _ => "bne"
  | .blez _ _ _ => "blez"
  | .bgtz _ _ _ => "bgtz"
  | .addi _ _ _ => "addi"
  | .addiu _ _ _ => "addiu"
  | .slti _ _ _ => "slti"
  | .sltiu _ _ _ => "sltiu"
  | .andi _ _ _ => "andi"
  | .ori _ _ _ => "ori"
  | .lui _ _ _ => "lui"
  | .lw _ _ _ => "lw"
  | .lbu _ _ _ => "lbu"
  | .lhu _ _ _ => "lhu"
  | .sb _ _ _ => "sb"
  | .sh _ _ _ => "sh"
  | .sw _ _ _ => "sw"

end Sys2Proof.Machine
end

