-- ==== Sys2Proof/Certificates/Slice0/Obligations.lean ====
section
/-! DEFINITION. The statements. The classifier of `step` and `exec` is the default one, `Classifier.mips`; a
statement about `cycleWith K` holds for every classifier (30_encoding R94). "A normal cycle that obtains the
record r" is: status running, not halted, the five counters 0, and the next response is r. -/

open Sys2Proof Sys2Proof.Machine

/-! ### Encoding and classification -/

/-- 30_encoding R81, R82, R91, R92: no bit of an encoding is dropped. -/
def Obligations.DecodeOfEncodeIsTheInstruction : Prop :=
  ∀ i : Instr, decode (encode i) = .ok i

/-- 30_encoding R82, R91: a decoded word is the word of the instruction it decodes to; with the statement above the
decoder and the encoder are inverse to each other on the words of the table. -/
def Obligations.EncodeOfDecodedIsTheWord : Prop :=
  ∀ (w : Word) (i : Instr), decode w = .ok i → encode i = w

/-- 30_encoding R93: which words are Illegal. -/
def Obligations.IllegalWordsAreThoseWithoutRow : Prop :=
  ∀ w : Word, classifyWord w = .illegal ↔
    w ≠ 0xFEEDFEED#32 ∧
    ((opcode w = 0x00#6 ∧
        funct w ∉ [0x00#6, 0x02#6, 0x08#6, 0x20#6, 0x21#6, 0x22#6, 0x23#6, 0x24#6, 0x25#6, 0x27#6, 0x2A#6, 0x2B#6]) ∨
      opcode w = 0x01#6 ∨ opcode w = 0x0E#6 ∨ (0x10 ≤ (opcode w).toNat ∧ (opcode w).toNat ≤ 0x22) ∨
      opcode w = 0x26#6 ∨ opcode w = 0x27#6 ∨ opcode w = 0x2A#6 ∨ 0x2C ≤ (opcode w).toNat)

/-- 30_encoding R92: the row that selects a word (match and mask) gives its instruction's mnemonic and its kind, the
halt row being tried first, and a word that no row selects is Illegal. -/
def Obligations.SelectingRowGivesMnemonicAndKind : Prop :=
  ∀ w : Word,
    match tableRows.find? (fun r => r.selects w) with
    | some r => classifyWord w = r.kind ∧ ∃ i, decode w = .ok i ∧ mnemonicOf i = r.mnemonic
    | none => classifyWord w = .illegal

/-- 30_encoding R92: words written out from the encodings, one of each family. -/
def Obligations.SampleWordsDecode : Prop :=
  decode 0x01095020#32 = .ok (.add 8#5 9#5 10#5 0#5) ∧
  decode 0x2109FFFC#32 = .ok (.addi 8#5 9#5 0xFFFC#16) ∧
  decode 0x8D280008#32 = .ok (.lw 9#5 8#5 8#16) ∧
  decode 0xAD280008#32 = .ok (.sw 9#5 8#5 8#16) ∧
  decode 0x11090003#32 = .ok (.beq 8#5 9#5 3#16) ∧
  decode 0x0C000010#32 = .ok (.jal 0x10#26) ∧
  decode 0x03E00008#32 = .ok (.jr 31#5 0#5 0#5 0#5) ∧
  decode 0xFEEDFEED#32 = .ok .halt ∧
  decode 0xFC000000#32 = .error (.illegalOpcode 0x3F#6)

/-- 30_encoding R88, R89: destination and sources of every instruction's word, by its own fields, and of an Illegal
word; every word is one or the other. -/
def Obligations.DestinationAndSourcesOfEncodedWords : Prop :=
  (∀ rs rt rd sh : RegNum,
    ∀ i ∈ [Instr.sll rs rt rd sh, .srl rs rt rd sh, .add rs rt rd sh, .addu rs rt rd sh, .sub rs rt rd sh,
        .subu rs rt rd sh, .and rs rt rd sh, .or rs rt rd sh, .nor rs rt rd sh, .slt rs rt rd sh, .sltu rs rt rd sh],
      destRegWord (encode i) = some rd ∧ srcRegsWord (encode i) = [rs, rt]) ∧
  (∀ (rs rt : RegNum) (n : BitVec 16),
    (∀ i ∈ [Instr.addi rs rt n, .addiu rs rt n, .slti rs rt n, .sltiu rs rt n, .andi rs rt n, .ori rs rt n,
        .lui rs rt n], destRegWord (encode i) = some rt ∧ srcRegsWord (encode i) = [rs]) ∧
    (∀ i ∈ [Instr.lw rs rt n, .lbu rs rt n, .lhu rs rt n],
      destRegWord (encode i) = some rt ∧ srcRegsWord (encode i) = []) ∧
    (∀ i ∈ [Instr.sb rs rt n, .sh rs rt n, .sw rs rt n],
      destRegWord (encode i) = none ∧ srcRegsWord (encode i) = []) ∧
    (∀ i ∈ [Instr.beq rs rt n, .bne rs rt n, .blez rs rt n, .bgtz rs rt n],
      destRegWord (encode i) = none ∧ srcRegsWord (encode i) = [rs, rt])) ∧
  (∀ (t : BitVec 26) (rs rt rd sh : RegNum), ∀ i ∈ [Instr.j t, .jal t, .jr rs rt rd sh, .halt],
    destRegWord (encode i) = none ∧ srcRegsWord (encode i) = []) ∧
  (∀ w : Word, classifyWord w = .illegal → destRegWord w = none ∧ srcRegsWord w = []) ∧
  ∀ w : Word, classifyWord w = .illegal ∨ ∃ i, w = encode i

/-- 30_encoding R94: the default instance meets what is assumed of a classifier. -/
def Obligations.DefaultClassifierIsLawful : Prop := Classifier.mips.Lawful

/-! ### One step -/

/-- 44_pipeline_engine R216, 42_control_halt R168: a normal cycle that obtains a record runs the instruction its word
decodes to; `exec` itself ends the cycle, nothing is added around it. A word without a row runs as Illegal. -/
def Obligations.StepRunsTheDecodedInstruction : Prop :=
  ∀ (s : State) (r : Record), s.status = .running → s.halted = false → s.flush = 0 → s.stall = ⟨0, 0, 0, 0⟩ →
    s.nextResponse = .record r →
    (∀ i, decode r.word = .ok i → step s = exec i s) ∧
    (∀ e, decode r.word = .error e → step s = execIllegal r.word s)

/-- 30_encoding R94: `step`, which goes through the decoder, the dispatch and each instruction's own meaning, is the
transition of the engine with the default classifier, in every state. -/
def Obligations.StepIsTheEngineTransition : Prop :=
  ∀ s : State, step s = .next (cycleWith Classifier.mips s)

/-- 44_pipeline_engine R237: with the default parameters the transition is the pseudocode of R237, for every classifier
and in every state. -/
def Obligations.TransitionIsThePseudocode : Prop :=
  ∀ (K : Classifier) (s : State), s.params = {} → cycleWith K s = Reference.cycle K s.nextResponse s

/-- 44_pipeline_engine R211: after Halt or Error a request changes nothing. -/
def Obligations.RequestAfterTheEndChangesNothing : Prop :=
  ∀ s : State, s.status = .halt ∨ s.status = .error → step s = .next s

/-- 00_scope R7, 44_pipeline_engine R216: the executor is called at most once, and only in a normal cycle that is not
draining; in every other cycle the responses are not even read. -/
def Obligations.OnlyFetchingCyclesReadTheExecutor : Prop :=
  ∀ (s : State) (l : List Response) (n : Nat),
    (s.status ≠ .running ∨ s.flush ≠ 0 ∨ s.stall ≠ ⟨0, 0, 0, 0⟩ ∨ s.halted = true) →
    ∃ t, step s = .next t ∧ t.input = s.input ∧ t.calls = s.calls ∧
      step { s with input := l, calls := n } = .next { t with input := l, calls := n }

/-- The model's choice (log entry 10): the step after `withFetchWord` runs the word's instruction, from any state. -/
def Obligations.StepAfterWithFetchWordRunsTheWord : Prop :=
  ∀ (s : State) (nbits w : Nat) (i : Instr), decodeTableWord nbits w = some i →
    step (s.withFetchWord nbits w) = exec i (s.withFetchWord nbits w) ∧
    ∃ t, step (s.withFetchWord nbits w) = .next t ∧ t.slot.fetch = .instr (encode i) ∧ t.input = s.input

/-! ### The cycles that fetch nothing -/

/-- 44_pipeline_engine R212, with the drain of R232: the whole effect of a flush cycle. -/
def Obligations.FlushCycleInjectsBubble : Prop :=
  ∀ s : State, s.status = .running → s.flush ≠ 0 →
    let e := entering Classifier.mips s.dcache s.slot.execute s.hist.execute
    let slots : Pipe Slot := ⟨.bubble, s.slot.fetch, s.slot.decode, s.slot.execute, s.slot.memory⟩
    step s = .next { s with
      slot := slots
      hist := ⟨.noAddr, s.hist.fetch, s.hist.decode, s.hist.execute, s.hist.memory⟩
      stall := { s.stall with dMiss := s.stall.dMiss + e.2.1 }
      dMissInMem := e.2.2
      dcache := e.1
      flush := s.flush - 1
      stats := { s.stats with flushCycles := s.stats.flushCycles + 1 }
      drain := if s.halted then s.drain - 1 else s.drain
      status := if s.halted ∧ s.drain - 1 = 0 then .halt else .running
      cycle := s.cycle + 1
      trace := s.trace ++ [⟨s.cycle + 1, slots⟩] }

/-- 44_pipeline_engine R213 (the priority iMiss, dMiss, decHaz, exHaz and the one unit served), R214, R238: the whole
effect of a regular stall cycle, for both values of STALL_BUBBLE_STAGE. -/
def Obligations.RegularStallHoldsFetchAndServesOneUnit : Prop :=
  ∀ s : State, s.status = .running → s.flush = 0 → s.stall ≠ ⟨0, 0, 0, 0⟩ →
    ¬ (s.stall.iMiss = 0 ∧ s.stall.dMiss ≠ 0 ∧ s.dMissInMem = true) →
    let e := entering Classifier.mips s.dcache s.slot.execute s.hist.execute
    let slots : Pipe Slot :=
      if s.params.stallBubbleStage = .execute then
        ⟨s.slot.fetch, s.slot.decode, .bubble, s.slot.execute, s.slot.memory⟩
      else ⟨s.slot.fetch, .bubble, s.slot.decode, s.slot.execute, s.slot.memory⟩
    let addrs : Pipe Touched :=
      if s.params.stallBubbleStage = .execute then
        ⟨s.hist.fetch, s.hist.decode, .noAddr, s.hist.execute, s.hist.memory⟩
      else ⟨s.hist.fetch, .noAddr, s.hist.decode, s.hist.execute, s.hist.memory⟩
    let i := s.stall.iMiss
    let d := s.stall.dMiss
    let c := s.stall.decHaz
    let x := s.stall.exHaz
    step s = .next { s with
      slot := slots
      hist := addrs
      dMissInMem := e.2.2
      dcache := e.1
      stall :=
        if i ≠ 0 then ⟨i - 1, d + e.2.1, c, x⟩
        else if d ≠ 0 then ⟨i, d - 1 + e.2.1, c, x⟩
        else if c ≠ 0 then ⟨i, d + e.2.1, c - 1, x⟩
        else ⟨i, d + e.2.1, c, x - 1⟩
      stats :=
        if i ≠ 0 then { s.stats with stallIMiss := s.stats.stallIMiss + 1 }
        else if d ≠ 0 then { s.stats with stallDMiss := s.stats.stallDMiss + 1 }
        else if c ≠ 0 then { s.stats with stallDec := s.stats.stallDec + 1 }
        else { s.stats with stallEx := s.stats.stallEx + 1 }
      cycle := s.cycle + 1
      trace := s.trace ++ [⟨s.cycle + 1, slots⟩] }

/-- 44_pipeline_engine R215: the whole effect of a data-miss freeze cycle. -/
def Obligations.DataMissFreezeClearsWritebackOnly : Prop :=
  ∀ s : State, s.status = .running → s.flush = 0 → s.stall.iMiss = 0 → s.stall.dMiss ≠ 0 → s.dMissInMem = true →
    step s = .next { s with
      slot := { s.slot with writeback := .bubble }
      hist := { s.hist with writeback := .noAddr }
      stall := { s.stall with dMiss := s.stall.dMiss - 1 }
      stats := { s.stats with stallDMiss := s.stats.stallDMiss + 1 }
      cycle := s.cycle + 1
      trace := s.trace ++ [⟨s.cycle + 1, { s.slot with writeback := .bubble }⟩] }

/-- 44_pipeline_engine R216, R218, R229, R232: the whole effect of a drain cycle; with the last one the status becomes
Halt. -/
def Obligations.DrainCycleShiftsBubbleAndEndsInHalt : Prop :=
  ∀ s : State, s.status = .running → s.flush = 0 → s.stall = ⟨0, 0, 0, 0⟩ → s.halted = true →
    let e := entering Classifier.mips s.dcache s.slot.execute s.hist.execute
    let slots : Pipe Slot := ⟨.bubble, s.slot.fetch, s.slot.decode, s.slot.execute, s.slot.memory⟩
    step s = .next { s with
      slot := slots
      hist := ⟨.noAddr, s.hist.fetch, s.hist.decode, s.hist.execute, s.hist.memory⟩
      stall := ⟨0, e.2.1, 0, 0⟩
      dMissInMem := e.2.2
      dcache := e.1
      drain := s.drain - 1
      status := if s.drain - 1 = 0 then .halt else .running
      cycle := s.cycle + 1
      trace := s.trace ++ [⟨s.cycle + 1, slots⟩] }

/-- 44_pipeline_engine R217, 60_exceptions R283: the out-of-range report sets the status to Error and changes nothing
else of the block; the model's own input fields say that the call was made. Every later request is a no-op. -/
def Obligations.OutOfRangeReportAbortsTheRun : Prop :=
  ∀ s : State, s.status = .running → s.halted = false → s.flush = 0 → s.stall = ⟨0, 0, 0, 0⟩ →
    s.nextResponse = .outOfRange →
    ∃ t, step s = .next t ∧ t = { s with status := .error, input := s.input.tail, calls := s.calls + 1 } ∧
      step t = .next t

/-! ### The instructions: the whole effect of the cycle that fetches each -/

/-- 40_arithmetic R110 to R120, R128: the ArithmeticOp instructions complete, with every field of the state after. -/
def Obligations.ArithmeticOpsAreFetched : Prop :=
  ∀ (s : State) (r : Record) (rs rt rd sh : RegNum),
    s.nextResponse = .record r → r.halt = false → r.valid = true → r.overflow = false →
    ∀ i ∈ [Instr.sll rs rt rd sh, .srl rs rt rd sh, .add rs rt rd sh, .addu rs rt rd sh, .sub rs rt rd sh,
        .subu rs rt rd sh, .and rs rt rd sh, .or rs rt rd sh, .nor rs rt rd sh, .slt rs rt rd sh, .sltu rs rt rd sh],
      ∃ t, exec i s = .next t ∧
        FetchEffect Classifier.mips (encode i) .arithmeticOp [rs, rt] r.pc .noAddr s.flush s.halted s.drain s t

/-- 40_arithmetic R121 to R127, R128: the ArithmeticImmediateOp instructions complete. -/
def Obligations.ImmediateOpsAreFetched : Prop :=
  ∀ (s : State) (r : Record) (rs rt : RegNum) (n : BitVec 16),
    s.nextResponse = .record r → r.halt = false → r.valid = true → r.overflow = false →
    ∀ i ∈ [Instr.addi rs rt n, .addiu rs rt n, .slti rs rt n, .sltiu rs rt n, .andi rs rt n, .ori rs rt n,
        .lui rs rt n],
      ∃ t, exec i s = .next t ∧
        FetchEffect Classifier.mips (encode i) .arithmeticImmediateOp [rs] r.pc .noAddr s.flush s.halted s.drain s t

/-- 41_load_store R140 to R142, R147, R149: the loads complete; the touched address goes into the history. -/
def Obligations.LoadsAreFetchedWithTheirAddress : Prop :=
  ∀ (s : State) (r : Record) (rs rt : RegNum) (n : BitVec 16),
    s.nextResponse = .record r → r.halt = false → r.valid = true → r.overflow = false →
    ∀ i ∈ [Instr.lw rs rt n, .lbu rs rt n, .lhu rs rt n],
      ∃ t, exec i s = .next t ∧
        FetchEffect Classifier.mips (encode i) .load [] r.pc r.addr s.flush s.halted s.drain s t

/-- 41_load_store R143 to R145, R147, R149: the stores complete; the touched address goes into the history. -/
def Obligations.StoresAreFetchedWithTheirAddress : Prop :=
  ∀ (s : State) (r : Record) (rs rt : RegNum) (n : BitVec 16),
    s.nextResponse = .record r → r.halt = false → r.valid = true → r.overflow = false →
    ∀ i ∈ [Instr.sb rs rt n, .sh rs rt n, .sw rs rt n],
      ∃ t, exec i s = .next t ∧
        FetchEffect Classifier.mips (encode i) .store [] r.pc r.addr s.flush s.halted s.drain s t

/-- 42_control_halt R160 to R163, R169, R170: the branches complete; being taken costs nothing. That the OPEN rule
R227 schedules its cycles behind a Bubble in Decode too is the model's reading (log entry 17, DEDUCED). -/
def Obligations.BranchesAreFetched : Prop :=
  ∀ (s : State) (r : Record) (rs rt : RegNum) (n : BitVec 16),
    s.nextResponse = .record r → r.halt = false → r.valid = true → r.overflow = false →
    ∀ i ∈ [Instr.beq rs rt n, .bne rs rt n, .blez rs rt n, .bgtz rs rt n],
      ∃ t, exec i s = .next t ∧
        FetchEffect Classifier.mips (encode i) .branch [rs, rt] r.pc .noAddr s.flush s.halted s.drain s t

/-- 42_control_halt R164 to R166, R171: the jumps complete, and schedule no hazard cycle whatever stands before them. -/
def Obligations.JumpsAreFetchedWithoutHazard : Prop :=
  ∀ (s : State) (r : Record) (a : BitVec 26) (rs rt rd sh : RegNum),
    s.nextResponse = .record r → r.halt = false → r.valid = true → r.overflow = false →
    (∀ i ∈ [Instr.j a, .jal a], ∃ t, exec i s = .next t ∧
      t.stall.decHaz = s.stall.decHaz ∧ t.stall.exHaz = s.stall.exHaz ∧
      FetchEffect Classifier.mips (encode i) .jump [] r.pc .noAddr s.flush s.halted s.drain s t) ∧
    ∃ t, exec (.jr rs rt rd sh) s = .next t ∧
      t.stall.decHaz = s.stall.decHaz ∧ t.stall.exHaz = s.stall.exHaz ∧
      FetchEffect Classifier.mips (encode (.jr rs rt rd sh)) .jumpRegister [] r.pc .noAddr s.flush s.halted s.drain s t

/-- 42_control_halt R167, 44_pipeline_engine R220: the halt completes: it is fetched, counted and looked up like any
word, and latches `halted` with four drain cycles to run; a fault flag on its record is ignored (R221). -/
def Obligations.HaltIsFetchedAndLatched : Prop :=
  ∀ (s : State) (r : Record), s.nextResponse = .record r → r.halt = true →
    ∃ t, exec .halt s = .next t ∧
      FetchEffect Classifier.mips 0xFEEDFEED#32 .halt [] r.pc .noAddr s.flush true 4 s t

/-- 42_control_halt R168, 60_exceptions R281: an Illegal word with its record's `valid = false` is fetched, counted,
looked up, and arms two flush cycles. -/
def Obligations.IllegalWordArmsTwoFlushCycles : Prop :=
  ∀ (s : State) (r : Record), classifyWord r.word = .illegal →
    s.status = .running → s.halted = false → s.flush = 0 → s.stall = ⟨0, 0, 0, 0⟩ →
    s.nextResponse = .record r → r.valid = false → r.halt = false →
    ∃ t, step s = .next t ∧
      FetchEffect Classifier.mips r.word .illegal [] r.pc .noAddr 2 false s.drain s t

/-- 44_pipeline_engine R220, R221, 60_exceptions R281, R282, R285, R288(b): for EVERY instruction the record's flags
decide the halt latch and the fault: halt, then invalid (2 cycles), then overflow (3 cycles), at most one. Nothing but
`flush`, `halted` and `drain` depends on them. For a branch, that the OPEN rule R227 schedules its cycles behind a
Bubble in Decode too is the model's reading (log entry 17, DEDUCED). -/
def Obligations.RecordFlagsDecideHaltAndFlush : Prop :=
  ∀ (s : State) (r : Record) (i : Instr), s.nextResponse = .record r →
    ∃ t, exec i s = .next t ∧
      FetchEffect Classifier.mips (encode i) (classifyWord (encode i)) (srcRegsWord (encode i)) r.pc
        (if classifyWord (encode i) = .load ∨ classifyWord (encode i) = .store then r.addr else .noAddr)
        (if r.halt then s.flush else if r.valid = false then s.flush + 2 else if r.overflow then s.flush + 3 else s.flush)
        (if r.halt then true else s.halted) (if r.halt then 4 else s.drain) s t

/-- 60_exceptions R283, 41_load_store R140 to R145 (Exceptions): where the executor answers an instruction with the
out-of-range report in place of its record, the cycle is aborted. -/
def Obligations.OutOfRangeInPlaceOfAnyInstruction : Prop :=
  ∀ (s : State) (i : Instr), s.nextResponse = .outOfRange →
    exec i s = .next { s with status := .error, input := s.input.tail, calls := s.calls + 1 }

/-! ### Hazards, for every classifier -/

/-- 44_pipeline_engine R223: op-branch, one executeHazard cycle, and only that. -/
def Obligations.OpBranchStallsOneCycle : Prop :=
  ∀ (K : Classifier) (s : State) (r : Record) (wd : Word) (d : RegNum),
    s.status = .running → s.halted = false → s.flush = 0 → s.stall = ⟨0, 0, 0, 0⟩ → s.nextResponse = .record r →
    s.slot.fetch = .instr wd → K.classify r.word = .branch →
    K.classify wd = .arithmeticOp ∨ K.classify wd = .arithmeticImmediateOp →
    K.destReg wd = some d → d ∈ K.srcRegs r.word →
    (cycleWith K s).stall.exHaz = 1 ∧ (cycleWith K s).stall.decHaz = 0

/-- 44_pipeline_engine R224: load-branch, two decodeHazard cycles, and only those. -/
def Obligations.LoadBranchStallsTwoCycles : Prop :=
  ∀ (K : Classifier) (s : State) (r : Record) (wd : Word) (d : RegNum),
    s.status = .running → s.halted = false → s.flush = 0 → s.stall = ⟨0, 0, 0, 0⟩ → s.nextResponse = .record r →
    s.slot.fetch = .instr wd → K.classify r.word = .branch → K.classify wd = .load →
    K.destReg wd = some d → d ∈ K.srcRegs r.word →
    (cycleWith K s).stall.exHaz = 0 ∧ (cycleWith K s).stall.decHaz = 2

/-- 44_pipeline_engine R225: load-op, one executeHazard cycle, and only that. -/
def Obligations.LoadOpStallsOneCycle : Prop :=
  ∀ (K : Classifier) (s : State) (r : Record) (wd : Word) (d : RegNum),
    s.status = .running → s.halted = false → s.flush = 0 → s.stall = ⟨0, 0, 0, 0⟩ → s.nextResponse = .record r →
    s.slot.fetch = .instr wd → K.classify r.word = .arithmeticOp ∨ K.classify r.word = .arithmeticImmediateOp →
    K.classify wd = .load → K.destReg wd = some d → d ∈ K.srcRegs r.word →
    (cycleWith K s).stall.exHaz = 1 ∧ (cycleWith K s).stall.decHaz = 0

/-- 44_pipeline_engine R226, 70_reset_and_hazards R317: every other pair schedules nothing, the OPEN rule R227 being
off: a consumer that is neither branch nor arithmetic, a producer that is neither load nor arithmetic, an arithmetic
producer of anything but a branch, no register in common, or a Bubble in Decode. -/
def Obligations.NoOtherPairStalls : Prop :=
  ∀ (K : Classifier) (s : State) (r : Record),
    s.status = .running → s.halted = false → s.flush = 0 → s.stall = ⟨0, 0, 0, 0⟩ → s.nextResponse = .record r →
    s.params.execLoadBranchStall = 0 →
    (s.slot.fetch = .bubble ∨ ∃ wd, s.slot.fetch = .instr wd ∧
      (K.classify r.word ∉ [.branch, .arithmeticOp, .arithmeticImmediateOp] ∨
        K.classify wd ∉ [.load, .arithmeticOp, .arithmeticImmediateOp] ∨
        (K.classify r.word ≠ .branch ∧ K.classify wd ≠ .load) ∨
        ∀ d, K.destReg wd = some d → d ∉ K.srcRegs r.word)) →
    (cycleWith K s).stall.exHaz = 0 ∧ (cycleWith K s).stall.decHaz = 0

/-- 44_pipeline_engine R227: the OPEN parameter, when no rule among R223 to R225 fires (for a Branch: no producer in
Decode of a kind these rules name has a matching destination): a Branch behind a matching Load in Execute schedules
that many decodeHazard cycles. With a Bubble in Decode this is the model's reading (log entry 17). -/
def Obligations.LoadInExecuteStallsByTheOpenParameter : Prop :=
  ∀ (K : Classifier) (s : State) (r : Record) (we : Word) (d : RegNum),
    s.status = .running → s.halted = false → s.flush = 0 → s.stall = ⟨0, 0, 0, 0⟩ → s.nextResponse = .record r →
    K.classify r.word = .branch → s.slot.decode = .instr we → K.classify we = .load →
    K.destReg we = some d → d ∈ K.srcRegs r.word →
    (∀ wd, s.slot.fetch = .instr wd → K.classify wd ∈ [.arithmeticOp, .arithmeticImmediateOp, .load] →
      ∀ d', K.destReg wd = some d' → d' ∉ K.srcRegs r.word) →
    (cycleWith K s).stall.exHaz = 0 ∧ (cycleWith K s).stall.decHaz = s.params.execLoadBranchStall

/-! ### The caches -/

/-- 43_cache_model R183: an address is its tag, its set index and its offset: two addresses lie in one block exactly
when they have the same set index and the same tag. -/
def Obligations.SameBlockIsSameSetAndTag : Prop :=
  ∀ (c : CacheConfig) (a b : Word), validConfig c = true →
    (a.toNat >>> offsetBits c = b.toNat >>> offsetBits c ↔ setIndex c a = setIndex c b ∧ tagOf c a = tagOf c b)

/-- 43_cache_model R185, R191, R31 of 10_state: after any access the block is resident, its way has rank 1, and an access
to any address of the same block hits. -/
def Obligations.AccessedBlockIsMostRecentAndHits : Prop :=
  ∀ (c : Cache) (a b : Word) (x y : Bool), CacheOk c → a.toNat >>> offsetBits c.cfg = b.toNat >>> offsetBits c.cfg →
    (∃ w ∈ (c.access a x).2.sets.getD (setIndex c.cfg a) [], w.holds (tagOf c.cfg a) = true ∧ w.rank = 1) ∧
    ((c.access a x).2.access b y).1 = true

/-- 43_cache_model R184: the lookup hits exactly when the block is resident, one counter counts it, and no other set
changes. -/
def Obligations.AccessHitsExactlyResidentBlocks : Prop :=
  ∀ (c : Cache) (a : Word) (x : Bool),
    ((c.access a x).1 = true ↔ c.resident a = true) ∧
    ((c.access a x).1 = true → (c.access a x).2.hits = c.hits + 1 ∧ (c.access a x).2.misses = c.misses) ∧
    ((c.access a x).1 = false → (c.access a x).2.hits = c.hits ∧ (c.access a x).2.misses = c.misses + 1) ∧
    (∀ j, j ≠ setIndex c.cfg a → (c.access a x).2.sets[j]? = c.sets[j]?) ∧
    (c.access a x).2.cfg = c.cfg

/-- 43_cache_model R185: a hit moves the matched way to the front: it takes rank 1, every valid way of lower rank ages
by one, every other way, tag and valid bit is unchanged, and `hits` counts it. -/
def Obligations.HitMovesMatchedWayToFront : Prop :=
  ∀ (c : Cache) (a : Word) (x : Bool) (m : Way), CacheOk c →
    let set := c.sets.getD (setIndex c.cfg a) []
    m ∈ set → m.holds (tagOf c.cfg a) = true →
    (c.access a x).1 = true ∧ (c.access a x).2.hits = c.hits + 1 ∧ (c.access a x).2.misses = c.misses ∧
    (c.access a x).2.sets.getD (setIndex c.cfg a) [] = set.map fun w =>
      if w = m then { w with rank := 1 }
      else if w.valid = true ∧ w.rank < m.rank then { w with rank := w.rank + 1 }
      else w

/-- 43_cache_model R186: a miss with a free way installs the tag in the first invalid way `f` at rank 1; every way that
was valid ages by one, the other invalid ways are unchanged, and `misses` counts it. -/
def Obligations.MissFillsFirstInvalidWay : Prop :=
  ∀ (c : Cache) (a : Word) (x : Bool) (vs us : List Way) (f : Way), CacheOk c →
    c.sets.getD (setIndex c.cfg a) [] = vs ++ f :: us → (∀ v ∈ vs, v.valid = true) → f.valid = false →
    c.resident a = false →
    (c.access a x).1 = false ∧ (c.access a x).2.hits = c.hits ∧ (c.access a x).2.misses = c.misses + 1 ∧
    (c.access a x).2.sets.getD (setIndex c.cfg a) [] =
      vs.map (fun w => { w with rank := w.rank + 1 }) ++ { tag := tagOf c.cfg a, valid := true, rank := 1 } ::
        us.map fun w => if w.valid = true then { w with rank := w.rank + 1 } else w

/-- 43_cache_model R187: a miss in a full set evicts the way at rank `ways`, of which there is exactly one: it alone takes
the new tag, every rank `k` becomes `k mod ways + 1`, and `misses` counts it. -/
def Obligations.MissInFullSetEvictsTheOldest : Prop :=
  ∀ (c : Cache) (a : Word) (x : Bool), CacheOk c →
    let set := c.sets.getD (setIndex c.cfg a) []
    set.all Way.valid = true → c.resident a = false →
    ∃ v ∈ set, v.rank = c.cfg.ways ∧ (∀ u ∈ set, u.rank = c.cfg.ways → u = v) ∧
      (c.access a x).1 = false ∧ (c.access a x).2.hits = c.hits ∧ (c.access a x).2.misses = c.misses + 1 ∧
      (c.access a x).2.sets.getD (setIndex c.cfg a) [] = set.map fun w =>
        { w with tag := if w = v then tagOf c.cfg a else w.tag, rank := w.rank % c.cfg.ways + 1 }

/-- 43_cache_model R193: with one way, an access to a different block of the set of the block just accessed misses,
an access to the same address hits, and the way's rank is 1. -/
def Obligations.DirectMappedConflictMisses : Prop :=
  ∀ (c : Cache) (a b : Word) (x y : Bool), CacheOk c → c.cfg.ways = 1 →
    (setIndex c.cfg a = setIndex c.cfg b → tagOf c.cfg a ≠ tagOf c.cfg b → ((c.access a x).2.access b y).1 = false) ∧
    ((c.access a x).2.access a y).1 = true ∧
    ∀ w ∈ (c.access a x).2.sets.getD (setIndex c.cfg a) [], w.rank = 1

/-- The new cache meets what must hold of a cache, and every access keeps it. The LRU ranks are 43_cache_model R191; the
distinct tags and the valid ways first are the spec's own inferences (R192, R194, marked derived there), and the
filler of an invalid way is log entry 21 (10_state R30, R42). -/
def Obligations.AccessKeepsCacheInvariant : Prop :=
  (∀ cfg : CacheConfig, validConfig cfg = true → CacheOk (freshCache cfg)) ∧
  ∀ (c : Cache) (a : Word) (x : Bool), CacheOk c → CacheOk (c.access a x).2

/-- 43_cache_model R195, 20_memory R72: the instruction cache changes only by the lookup of a fetched record's pc; the data
cache only by the lookup of the instruction that leaves Execute. -/
def Obligations.EachCacheChangesOnlyByItsOwnLookups : Prop :=
  ∀ s t : State, step s = .next t →
    (t.icache = s.icache ∨
      ∃ r, shapeOf s = .fetch ∧ s.nextResponse = .record r ∧ t.icache = (s.icache.access r.pc false).2) ∧
    (t.dcache = s.dcache ∨
      ∃ w a, s.slot.execute = .instr w ∧ s.hist.execute = .addr a ∧ (classifyWord w).isMem = true ∧
        t.dcache = (s.dcache.access a (classifyWord w).isStore).2)

/-! ### Reset -/

/-- 70_reset_and_hazards R311, R313, 10_state R41, R42, R43: what reset leaves, for every valid pair of configurations. -/
def Obligations.ResetLeavesEverythingEmpty : Prop :=
  ∀ (c : Setup), c.wellFormed = true →
    let s := State.construct c
    (∀ st, s.slot.get st = .bubble ∧ s.hist.get st = .noAddr) ∧
    s.stall = ⟨0, 0, 0, 0⟩ ∧ s.flush = 0 ∧ s.dMissInMem = false ∧ s.halted = false ∧ s.drain = 0 ∧
    s.status = .running ∧ s.cycle = 0 ∧ s.stats = ⟨0, 0, 0, 0, 0, 0⟩ ∧
    s.icache.cfg = c.icfg ∧ s.dcache.cfg = c.dcfg ∧ s.icache.hits = 0 ∧ s.icache.misses = 0 ∧
    s.dcache.hits = 0 ∧ s.dcache.misses = 0 ∧
    s.icache.sets.length = setCount c.icfg ∧ s.dcache.sets.length = setCount c.dcfg ∧
    (∀ ws ∈ s.icache.sets, ws.length = c.icfg.ways ∧ ∀ w ∈ ws, w = ⟨0, false, 0⟩) ∧
    (∀ ws ∈ s.dcache.sets, ws.length = c.dcfg.ways ∧ ∀ w ∈ ws, w = ⟨0, false, 0⟩)

/-- 60_exceptions R284: with an invalid configuration the status is Error, and no cycle ever runs. -/
def Obligations.InvalidConfigurationNeverStarts : Prop :=
  ∀ (c : Setup), c.wellFormed = false →
    (State.construct c).status = .error ∧ (State.construct c).cycle = 0 ∧ (State.construct c).trace = [] ∧
    step (State.construct c) = .next (State.construct c)

/-- Reset, with any valid configuration, meets the invariant of the block and the accounts. The invariant's distinct
tags and valid ways first are the spec's own inferences (43_cache_model R192, R194), its filler is log entry 21. -/
def Obligations.ResetMeetsInvariantAndAccounts : Prop :=
  ∀ (c : Setup), c.wellFormed = true →
    Inv Classifier.mips (State.construct c) ∧ HaltWordInPlace Classifier.mips (State.construct c) ∧
    Accounts {} (State.construct c)

/-- The model's choice (log entry 2): `State.reset` is the construction with the default configuration, which is valid.
The invariant of the caches is as in the statement above (log entry 21). -/
def Obligations.DefaultResetMeetsInvariant : Prop :=
  Inv Classifier.mips State.reset ∧ State.reset.status = .running

/-! ### Invariants of every step -/

/-- 10_state R22, R25, R26, R31, 44_pipeline_engine R236(b), (c), (d): every step keeps the invariant, whatever the
executor answers. Of the caches it holds the spec's own inferences too (43_cache_model R192, R194, marked derived
there), and the filler of an invalid way (log entry 21). -/
def Obligations.StepKeepsInvariant : Prop :=
  ∀ s t : State, Inv Classifier.mips s → step s = .next t → Inv Classifier.mips t

/-- 44_pipeline_engine R236(c): with an executor that keeps its duties, the halt word stays at its place on its way. -/
def Obligations.HaltWordStaysInPlace : Prop :=
  ∀ s t : State, Inv Classifier.mips s → HaltWordInPlace Classifier.mips s →
    s.nextResponse.wellFormed Classifier.mips = true → step s = .next t → HaltWordInPlace Classifier.mips t

/-- 44_pipeline_engine R236(c), R232: when the status becomes Halt, all five counters are zero, the Halt word is in
Writeback and the other four slots are Bubbles. -/
def Obligations.HaltLeavesEmptyPipeline : Prop :=
  ∀ s t : State, Inv Classifier.mips s → HaltWordInPlace Classifier.mips s → s.status = .running →
    step s = .next t → t.status = .halt →
    t.flush = 0 ∧ t.stall = ⟨0, 0, 0, 0⟩ ∧ t.slot = ⟨.bubble, .bubble, .bubble, .bubble, .instr 0xFEEDFEED#32⟩

/-- 45_statistics R274 (a) to (d): every step keeps the identities between the statistics, the pending counters and the
number of events. The cycles of the OPEN rule R227 are counted in, those behind a Bubble in Decode too, by the
model's reading (log entry 17, DEDUCED). -/
def Obligations.StepKeepsAccounts : Prop :=
  ∀ (n : Tally) (s t : State), Inv Classifier.mips s → Accounts n s → step s = .next t →
    Accounts (n.after Classifier.mips s) t

/-- 70_reset_and_hazards R322 (b), 45_statistics R274 (e), with the OPEN rule R227 at its default: the cycle count of a
run that ended in Halt. -/
def Obligations.CycleCountAtHalt : Prop :=
  ∀ (n : Tally) (s : State), Inv Classifier.mips s → Accounts n s → s.status = .halt →
    s.params.execLoadBranchStall = 0 →
    s.cycle = s.stats.dynInstr + 4 + s.icache.misses * s.icache.cfg.missLatencyCycles
      + s.dcache.misses * s.dcache.cfg.missLatencyCycles + 2 * n.loadBranch + (n.opBranch + n.loadOp)
      + 3 * n.overflow + 2 * n.illegal

/-- 70_reset_and_hazards R313, 10_state R29: the configuration of the caches never changes. The OPEN parameters are
parameters of the step (00_scope R5, 10_state R37); that they are a field of State, which no step changes, is the
model's (log entry 3, DEDUCED). -/
def Obligations.ConfigurationNeverChanges : Prop :=
  ∀ s t : State, step s = .next t →
    t.params = s.params ∧ t.icache.cfg = s.icache.cfg ∧ t.dcache.cfg = s.dcache.cfg ∧
    t.icache.sets.length = s.icache.sets.length ∧ t.dcache.sets.length = s.dcache.sets.length

/-- 45_statistics R272: no step lowers a counter of the statistics. -/
def Obligations.StatisticsNeverDecrease : Prop :=
  ∀ s t : State, step s = .next t →
    s.statistics.dynInstr ≤ t.statistics.dynInstr ∧ s.statistics.cycles ≤ t.statistics.cycles ∧
    s.statistics.icHits ≤ t.statistics.icHits ∧ s.statistics.icMisses ≤ t.statistics.icMisses ∧
    s.statistics.dcHits ≤ t.statistics.dcHits ∧ s.statistics.dcMisses ≤ t.statistics.dcMisses ∧
    s.statistics.stallIMiss ≤ t.statistics.stallIMiss ∧ s.statistics.stallDMiss ≤ t.statistics.stallDMiss ∧
    s.statistics.stallDec ≤ t.statistics.stallDec ∧ s.statistics.stallEx ≤ t.statistics.stallEx ∧
    s.statistics.flushCycles ≤ t.statistics.flushCycles

/-- 44_pipeline_engine R231, R233, R217: a request in Running completes a cycle, of whatever shape, which counts it and
emits exactly one snapshot, of the slots after it; only the cycle that fetches and gets the out-of-range report
aborts, and it counts and emits nothing. That the snapshots are collected in `trace` is the model's (log entry 7). -/
def Obligations.EachCompletedCycleEmitsOneSnapshot : Prop :=
  ∀ s t : State, s.status = .running → step s = .next t →
    if shapeOf s = .fetch ∧ s.nextResponse = .outOfRange then
      t.status = .error ∧ t.cycle = s.cycle ∧ t.trace = s.trace ∧ t.slot = s.slot
    else t.cycle = s.cycle + 1 ∧ t.trace = s.trace ++ [⟨t.cycle, t.slot⟩]

/-- 44_pipeline_engine R236(e): instructions never overtake. A request that completes no cycle moves nothing; a completed
cycle lets the content of Writeback go, keeps the other words in their order, and puts at most one word, the
record's, behind them all. -/
def Obligations.InstructionsNeverOvertake : Prop :=
  ∀ s t : State, step s = .next t →
    (t.cycle = s.cycle ∧ t.slot = s.slot) ∨
    (t.cycle = s.cycle + 1 ∧
      ∃ new : List Word,
        wordsOf [t.slot.writeback, t.slot.memory, t.slot.execute, t.slot.decode, t.slot.fetch] =
          wordsOf [s.slot.memory, s.slot.execute, s.slot.decode, s.slot.fetch] ++ new ∧
        (new = [] ∨ ∃ r, shapeOf s = .fetch ∧ s.nextResponse = .record r ∧ new = [r.word]))

/-! ### Run requests -/

/-- 44_pipeline_engine R234: a bounded run always returns; Success means that all n cycles completed and the block is still
Running, the other results are its status. -/
def Obligations.BoundedRunReturnsItsResult : Prop :=
  ∀ (n : Nat) (s : State), ∃ r t, runCycles n s = .next (r, t) ∧
    (r = .success ↔ t.status = .running) ∧ (r = .halt ↔ t.status = .halt) ∧ (r = .error ↔ t.status = .error) ∧
    (r = .success → t.cycle = s.cycle + n) ∧ t.cycle ≤ s.cycle + n

/-- 44_pipeline_engine R234, 95_test_vectors VS1: a run of m cycles and then of n is a run of m + n. -/
def Obligations.BoundedRunsCompose : Prop :=
  ∀ (m n : Nat) (s t : State) (r : RunResult), runCycles m s = .next (r, t) → runCycles (m + n) s = runCycles n t

/-! ### The external collaborators -/

/-- 10_state R38, 30_encoding R99: the orientation executor (log entry 13) keeps the executor's duties. -/
def Obligations.OrientationExecutorKeepsItsDuties : Prop :=
  ∀ e : Executor, e.executeNext.1.wellFormed Classifier.mips = true

/-- 20_memory R61, R63: an access of the memory store fails exactly outside the window; a value written is read back, most
significant byte first, and no byte outside the stored ones changes. For an access whose bytes run past 0xFFFFFFFF in a
window beyond it this is the model's choice (log entry 22), for one partly in the window its reading (log entry 25);
that a misaligned access in the window succeeds is its choice too (log entry 16: 20_memory R65 leaves it to the store). -/
def Obligations.MemoryStoreReadsBackWhatWasWritten : Prop :=
  ∀ (m : MemoryStore) (a : Word) (w : Width) (v : Word), m.cells.wf →
    (if m.base ≤ a.toNat ∧ a.toNat + w.bytes ≤ m.base + m.size then
      ∃ m', m.setValue a w v = .ok m' ∧ m'.base = m.base ∧ m'.size = m.size ∧ m'.cells.wf ∧
        m'.getValue a w = .ok (BitVec.ofNat 32 (v.toNat % 2 ^ (8 * w.bytes))) ∧
        (∀ k < w.bytes,
          m'.cells.read (a.toNat + k) = BitVec.ofNat 8 (v.toNat / 2 ^ (8 * (w.bytes - 1 - k)))) ∧
        ∀ b, (b < a.toNat ∨ a.toNat + w.bytes ≤ b) → m'.cells.read b = m.cells.read b
    else
      m.setValue a w v = .error .outOfRangeMemoryAccess ∧ m.getValue a w = .error .outOfRangeMemoryAccess)
end

