-- ==== Sys2Proof/Laws/Cache.lean ====
section
/-! SUPPORT. What the cache operations can do, once each: the three cases of a lookup (43_cache_model R184 to R187),
what `access` keeps, and that each case keeps what must hold of a set (R191, R192, R194). -/

namespace Sys2Proof.Machine

/-! ### The shape of `access` -/

@[simp] theorem access_cfg (c : Cache) (a : Word) (b : Bool) : (c.access a b).2.cfg = c.cfg := rfl

@[simp] theorem access_sets_length (c : Cache) (a : Word) (b : Bool) :
    (c.access a b).2.sets.length = c.sets.length := by
  simp [Cache.access]

/-- Exactly one of the two counters counts a lookup (43_cache_model R184). -/
theorem access_counters (c : Cache) (a : Word) (b : Bool) :
    (c.access a b).2.hits = c.hits + (if (c.access a b).1 then 1 else 0) ∧
    (c.access a b).2.misses = c.misses + (if (c.access a b).1 then 0 else 1) := by
  unfold Cache.access
  dsimp only
  constructor <;> split <;> simp_all

/-- `isWrite` has no effect (43_cache_model R188). -/
theorem access_isWrite (c : Cache) (a : Word) (b b' : Bool) : c.access a b = c.access a b' := rfl

/-- The three cases of a lookup in a set (43_cache_model R184). -/
theorem accessSet_cases (n t : Nat) (ws : List Way) :
    (∃ m, ws.find? (Way.holds t) = some m ∧ accessSet n t ws = (true, promote t m.rank ws)) ∨
    (ws.find? (Way.holds t) = none ∧ ws.all Way.valid = false ∧ accessSet n t ws = (false, fill t ws)) ∨
    (ws.find? (Way.holds t) = none ∧ ws.all Way.valid = true ∧ accessSet n t ws = (false, evict n t ws)) := by
  unfold accessSet
  cases h : ws.find? (Way.holds t) with
  | some m => exact .inl ⟨m, rfl, rfl⟩
  | none => cases hv : ws.all Way.valid <;> simp

/-! ### Single ways -/

@[simp] theorem ageBelow_valid (r : Nat) (w : Way) : (w.ageBelow r).valid = w.valid := by
  unfold Way.ageBelow; split <;> rfl
@[simp] theorem ageBelow_tag (r : Nat) (w : Way) : (w.ageBelow r).tag = w.tag := by
  unfold Way.ageBelow; split <;> rfl
@[simp] theorem age_valid (w : Way) : w.age.valid = w.valid := by
  unfold Way.age; split <;> rfl
@[simp] theorem age_tag (w : Way) : w.age.tag = w.tag := by
  unfold Way.age; split <;> rfl

theorem ageBelow_invalid {r : Nat} {w : Way} (h : w.valid = false) : w.ageBelow r = w := by
  simp [Way.ageBelow, h]
theorem age_invalid {w : Way} (h : w.valid = false) : w.age = w := by simp [Way.age, h]

/-- A valid way's rank after a hit at rank `r` elsewhere. -/
theorem ageBelow_rank {r : Nat} {w : Way} (h : w.valid = true) :
    (w.ageBelow r).rank = if w.rank < r then w.rank + 1 else w.rank := by
  unfold Way.ageBelow; by_cases hr : w.rank < r <;> simp [h, hr]

theorem age_rank {w : Way} (h : w.valid = true) : w.age.rank = w.rank + 1 := by simp [Way.age, h]

theorem holds_iff {t : Nat} {w : Way} : w.holds t = true ↔ w.valid = true ∧ w.tag = t := by
  simp [Way.holds]

/-! ### The three cases: length, valid bits and tags -/

@[simp] theorem promote_length (t r : Nat) (ws : List Way) : (promote t r ws).length = ws.length := by
  induction ws with
  | nil => rfl
  | cons w ws ih => unfold promote; split <;> simp [ih]

@[simp] theorem fill_length (t : Nat) (ws : List Way) : (fill t ws).length = ws.length := by
  induction ws with
  | nil => rfl
  | cons w ws ih => unfold fill; split <;> simp [ih]

@[simp] theorem evict_length (n t : Nat) (ws : List Way) : (evict n t ws).length = ws.length := by
  simp [evict]

/-- A hit moves no tag and no valid bit (43_cache_model R185). -/
theorem promote_tags_valid (t r : Nat) (ws : List Way) :
    (promote t r ws).map (fun w => (w.tag, w.valid)) = ws.map fun w => (w.tag, w.valid) := by
  induction ws with
  | nil => rfl
  | cons w ws ih =>
    unfold promote
    split
    · simp [Function.comp_def]
    · simp [ih]

/-- Every way after a hit comes from a way with the same tag and valid bit, and is that way if invalid. -/
theorem mem_promote {t r : Nat} {ws : List Way} {w : Way} (h : w ∈ promote t r ws) :
    ∃ v ∈ ws, w.tag = v.tag ∧ w.valid = v.valid ∧ (v.valid = false → w = v) := by
  induction ws with
  | nil => simp [promote] at h
  | cons v ws ih =>
    unfold promote at h
    split at h
    · rename_i hv
      rcases List.mem_cons.1 h with rfl | h
      · exact ⟨v, by simp, rfl, rfl, fun hf => by simp [holds_iff] at hv; simp [hv.1] at hf⟩
      · obtain ⟨u, hu, rfl⟩ := List.mem_map.1 h
        exact ⟨u, by simp [hu], by simp, by simp, fun hf => ageBelow_invalid hf⟩
    · rcases List.mem_cons.1 h with rfl | h
      · exact ⟨v, by simp, by simp, by simp, fun hf => ageBelow_invalid hf⟩
      · obtain ⟨u, hu, h'⟩ := ih h
        exact ⟨u, by simp [hu], h'⟩

/-- Every way after a fill is the filled one or comes from a way with the same tag and valid bit. -/
theorem mem_fill {t : Nat} {ws : List Way} {w : Way} (h : w ∈ fill t ws) :
    w = { tag := t, valid := true, rank := 1 } ∨
    ∃ v ∈ ws, w.tag = v.tag ∧ w.valid = v.valid ∧ (v.valid = false → w = v) := by
  induction ws with
  | nil => simp [fill] at h
  | cons v ws ih =>
    unfold fill at h
    split at h
    · rcases List.mem_cons.1 h with rfl | h
      · exact .inr ⟨v, by simp, by simp, by simp, fun hf => age_invalid hf⟩
      · rcases ih h with h | ⟨u, hu, h'⟩
        · exact .inl h
        · exact .inr ⟨u, by simp [hu], h'⟩
    · rcases List.mem_cons.1 h with rfl | h
      · exact .inl rfl
      · obtain ⟨u, hu, rfl⟩ := List.mem_map.1 h
        exact .inr ⟨u, by simp [hu], by simp, by simp, fun hf => age_invalid hf⟩

/-! ### Ranks as permutations of 1..n -/

/-- A map that sends 1..n into itself without collisions permutes it. -/
theorem perm_map_range {n : Nat} {l : List Nat} (f : Nat → Nat) (hl : l.Perm (List.range' 1 n))
    (hin : ∀ x, 1 ≤ x → x ≤ n → 1 ≤ f x ∧ f x ≤ n)
    (hinj : ∀ x y, 1 ≤ x → x ≤ n → 1 ≤ y → y ≤ n → f x = f y → x = y) :
    (l.map f).Perm (List.range' 1 n) := by
  refine (hl.map f).trans ?_
  have hnd : ((List.range' 1 n).map f).Nodup := by
    refine List.Nodup.map_on ?_ List.nodup_range'
    intro x hx y hy h
    simp only [List.mem_range'_1] at hx hy
    exact hinj x y (by omega) (by omega) (by omega) (by omega) h
  refine (List.subperm_of_subset hnd ?_).perm_of_length_le (by simp)
  intro y hy
  obtain ⟨x, hx, rfl⟩ := List.mem_map.1 hy
  simp only [List.mem_range'_1] at hx ⊢
  have := hin x (by omega) (by omega)
  omega

theorem length_validRanks (ws : List Way) : (validRanks ws).length = ws.countP Way.valid := by
  simp [validRanks, List.countP_eq_length_filter]

theorem LruRanks.nodup {ws : List Way} (h : LruRanks ws) : (validRanks ws).Nodup :=
  h.nodup_iff.2 List.nodup_range'

theorem LruRanks.bounds {ws : List Way} (h : LruRanks ws) {x : Nat} (hx : x ∈ validRanks ws) :
    1 ≤ x ∧ x ≤ ws.countP Way.valid := by
  have := h.mem_iff.1 hx
  simp only [List.mem_range'_1] at this
  omega

/-- Where a hit at rank `r` sends a rank (43_cache_model R185). -/
def hitRank (r x : Nat) : Nat := if x = r then 1 else if x < r then x + 1 else x

theorem validRanks_map_ageBelow {r : Nat} {ws : List Way} (h : r ∉ validRanks ws) :
    validRanks (ws.map (Way.ageBelow r)) = (validRanks ws).map (hitRank r) := by
  induction ws with
  | nil => rfl
  | cons w ws ih =>
    cases hv : w.valid with
    | false =>
      have : validRanks (w :: ws) = validRanks ws := by simp [validRanks, hv]
      rw [this] at h ⊢
      have h2 : validRanks ((w :: ws).map (Way.ageBelow r)) = validRanks (ws.map (Way.ageBelow r)) := by
        simp [validRanks, hv]
      rw [h2, ih h]
    | true =>
      have h1 : validRanks (w :: ws) = w.rank :: validRanks ws := by simp [validRanks, hv]
      rw [h1] at h ⊢
      have h2 : validRanks ((w :: ws).map (Way.ageBelow r))
          = (w.ageBelow r).rank :: validRanks (ws.map (Way.ageBelow r)) := by
        simp [validRanks, hv]
      simp only [List.mem_cons, not_or] at h
      rw [h2, ih h.2, ageBelow_rank hv]
      simp [hitRank, Ne.symm h.1]

/-- The ranks after a hit (43_cache_model R185). -/
theorem validRanks_promote {t : Nat} {ws : List Way} {m : Way} (hn : (validRanks ws).Nodup)
    (hm : ws.find? (Way.holds t) = some m) :
    validRanks (promote t m.rank ws) = (validRanks ws).map (hitRank m.rank) := by
  induction ws with
  | nil => simp at hm
  | cons w ws ih =>
    unfold promote
    by_cases hw : w.holds t = true
    · have hmw : m = w := by simpa [hw] using hm.symm
      subst hmw
      have hv := (holds_iff.1 hw).1
      have h1 : validRanks (m :: ws) = m.rank :: validRanks ws := by simp [validRanks, hv]
      rw [h1] at hn ⊢
      have h2 : validRanks ({ m with rank := 1 } :: ws.map (Way.ageBelow m.rank))
          = 1 :: validRanks (ws.map (Way.ageBelow m.rank)) := by simp [validRanks, hv]
      rw [if_pos hw, h2, validRanks_map_ageBelow (List.nodup_cons.1 hn).1]
      simp [hitRank]
    · rw [if_neg hw]
      have hm' : ws.find? (Way.holds t) = some m := by simpa [hw] using hm
      have hmem : m.rank ∈ validRanks ws := by
        have h3 := List.find?_some hm'
        exact List.mem_map.2 ⟨m, List.mem_filter.2 ⟨List.mem_of_find?_eq_some hm', (holds_iff.1 h3).1⟩, rfl⟩
      cases hv : w.valid with
      | false =>
        have h1 : validRanks (w :: ws) = validRanks ws := by simp [validRanks, hv]
        rw [h1] at hn ⊢
        rw [ageBelow_invalid hv]
        have h2 : validRanks (w :: promote t m.rank ws) = validRanks (promote t m.rank ws) := by
          simp [validRanks, hv]
        rw [h2, ih hn hm']
      | true =>
        have h1 : validRanks (w :: ws) = w.rank :: validRanks ws := by simp [validRanks, hv]
        rw [h1] at hn ⊢
        have hne : w.rank ≠ m.rank := fun h => (List.nodup_cons.1 hn).1 (h ▸ hmem)
        have h2 : validRanks (w.ageBelow m.rank :: promote t m.rank ws)
            = (w.ageBelow m.rank).rank :: validRanks (promote t m.rank ws) := by simp [validRanks, hv]
        rw [h2, ih (List.nodup_cons.1 hn).2 hm', ageBelow_rank hv]
        simp [hitRank, hne]

theorem countP_valid_promote (t r : Nat) (ws : List Way) :
    (promote t r ws).countP Way.valid = ws.countP Way.valid := by
  have h := congrArg (List.countP Prod.snd) (promote_tags_valid t r ws)
  simpa [List.countP_map, Function.comp_def] using h

/-- A hit keeps the LRU invariant (43_cache_model R191). -/
theorem lru_promote {t : Nat} {ws : List Way} {m : Way} (h : LruRanks ws)
    (hm : ws.find? (Way.holds t) = some m) : LruRanks (promote t m.rank ws) := by
  have hmem : m.rank ∈ validRanks ws :=
    List.mem_map.2 ⟨m, List.mem_filter.2 ⟨List.mem_of_find?_eq_some hm, (holds_iff.1 (List.find?_some hm)).1⟩, rfl⟩
  have hb := h.bounds hmem
  unfold LruRanks
  rw [validRanks_promote h.nodup hm, countP_valid_promote]
  refine perm_map_range _ h ?_ ?_
  · intro x h1 h2; unfold hitRank; split_ifs <;> omega
  · intro x y _ _ _ _; unfold hitRank; split_ifs <;> omega

theorem map_age_ranks (ws : List Way) : validRanks (ws.map Way.age) = (validRanks ws).map (· + 1) := by
  induction ws with
  | nil => rfl
  | cons w ws ih =>
    cases hv : w.valid with
    | false =>
      have h1 : validRanks (w :: ws) = validRanks ws := by simp [validRanks, hv]
      have h2 : validRanks ((w :: ws).map Way.age) = validRanks (ws.map Way.age) := by simp [validRanks, hv]
      rw [h1, h2, ih]
    | true =>
      have h1 : validRanks (w :: ws) = w.rank :: validRanks ws := by simp [validRanks, hv]
      have h2 : validRanks ((w :: ws).map Way.age) = w.age.rank :: validRanks (ws.map Way.age) := by
        simp [validRanks, hv]
      rw [h1, h2, ih, age_rank hv]; rfl

/-- The ranks after a fill (43_cache_model R186). -/
theorem validRanks_fill {t : Nat} {ws : List Way} (h : ws.all Way.valid = false) :
    (validRanks (fill t ws)).Perm (1 :: (validRanks ws).map (· + 1)) := by
  induction ws with
  | nil => simp at h
  | cons w ws ih =>
    unfold fill
    cases hv : w.valid with
    | false =>
      have h1 : validRanks (w :: ws) = validRanks ws := by simp [validRanks, hv]
      have h2 : validRanks ({ tag := t, valid := true, rank := 1 } :: ws.map Way.age)
          = 1 :: validRanks (ws.map Way.age) := by simp [validRanks]
      rw [h1]
      simp only [Bool.false_eq_true, if_false]
      rw [h2, map_age_ranks]
    | true =>
      have h' : ws.all Way.valid = false := by simpa [hv] using h
      have h1 : validRanks (w :: ws) = w.rank :: validRanks ws := by simp [validRanks, hv]
      have h2 : validRanks (w.age :: fill t ws) = w.age.rank :: validRanks (fill t ws) := by
        simp [validRanks, hv]
      rw [h1]
      simp only [if_true]
      rw [h2, age_rank hv]
      exact ((ih h').cons _).trans (List.Perm.swap _ _ _)

theorem countP_valid_fill {t : Nat} {ws : List Way} (h : ws.all Way.valid = false) :
    (fill t ws).countP Way.valid = ws.countP Way.valid + 1 := by
  have := (validRanks_fill (t := t) h).length_eq
  simpa [length_validRanks] using this

/-- A fill keeps the LRU invariant (43_cache_model R191). -/
theorem lru_fill {t : Nat} {ws : List Way} (h : LruRanks ws) (hv : ws.all Way.valid = false) :
    LruRanks (fill t ws) := by
  unfold LruRanks
  rw [countP_valid_fill hv]
  refine (validRanks_fill hv).trans ?_
  have h2 : List.range' 1 (ws.countP Way.valid + 1) = 1 :: (List.range' 1 (ws.countP Way.valid)).map (· + 1) := by
    rw [List.range'_succ, List.range'_eq_map_range, List.range'_eq_map_range, List.map_map]
    congr 1
    apply List.map_congr_left
    intro x _
    simp only [Function.comp]
    omega
  rw [h2]
  exact (h.map _).cons _

theorem validRanks_evict {n t : Nat} {ws : List Way} :
    validRanks (evict n t ws) = (validRanks ws).map (fun x => x % n + 1) := by
  induction ws with
  | nil => rfl
  | cons w ws ih =>
    unfold evict at ih ⊢
    cases hv : w.valid with
    | false =>
      have h1 : validRanks (w :: ws) = validRanks ws := by simp [validRanks, hv]
      rw [h1, ← ih]
      simp [validRanks, hv]
    | true =>
      have h1 : validRanks (w :: ws) = w.rank :: validRanks ws := by simp [validRanks, hv]
      rw [h1, List.map_cons (l := validRanks ws), ← ih]
      simp [validRanks, hv]

theorem countP_valid_evict (n t : Nat) (ws : List Way) :
    (evict n t ws).countP Way.valid = ws.countP Way.valid := by
  have := congrArg List.length (validRanks_evict (n := n) (t := t) (ws := ws))
  simpa [length_validRanks] using this

/-- An eviction keeps the LRU invariant (43_cache_model R191). -/
theorem lru_evict {t : Nat} {ws : List Way} (h : LruRanks ws) (hv : ws.all Way.valid = true) :
    LruRanks (evict ws.length t ws) := by
  have hc : ws.countP Way.valid = ws.length := by
    rw [List.countP_eq_length]; simpa using hv
  unfold LruRanks at h ⊢
  rw [validRanks_evict, countP_valid_evict, hc]
  rw [hc] at h
  have key : ∀ x, 1 ≤ x → x ≤ ws.length → x % ws.length = if x = ws.length then 0 else x := by
    intro x h1 h2
    split
    · next he => rw [he, Nat.mod_self]
    · exact Nat.mod_eq_of_lt (by omega)
  refine perm_map_range _ h ?_ ?_
  · intro x h1 h2
    rw [key x h1 h2]; split <;> omega
  · intro x y h1 h2 h3 h4
    rw [key x h1 h2, key y h3 h4]; split_ifs <;> omega

/-! ### Tags -/

theorem validTags_promote (t r : Nat) (ws : List Way) : validTags (promote t r ws) = validTags ws := by
  have h := congrArg (fun l => (l.filter Prod.snd).map Prod.fst) (promote_tags_valid t r ws)
  simpa [List.filter_map, Function.comp_def, validTags] using h

theorem not_mem_validTags {t : Nat} {ws : List Way} (h : ws.find? (Way.holds t) = none) : t ∉ validTags ws := by
  intro hm
  obtain ⟨w, hw, ht⟩ := List.mem_map.1 hm
  obtain ⟨hw, hv⟩ := List.mem_filter.1 hw
  exact List.find?_eq_none.1 h w hw (holds_iff.2 ⟨hv, ht⟩)

theorem validTags_fill {t : Nat} {ws : List Way} (h : ws.all Way.valid = false) :
    (validTags (fill t ws)).Perm (t :: validTags ws) := by
  induction ws with
  | nil => simp at h
  | cons w ws ih =>
    unfold fill
    cases hv : w.valid with
    | false =>
      have : validTags (ws.map Way.age) = validTags ws := by
        simp [validTags, List.filter_map, Function.comp_def]
      simp only [Bool.false_eq_true, if_false]
      have h2 : validTags ({ tag := t, valid := true, rank := 1 } :: ws.map Way.age)
          = t :: validTags (ws.map Way.age) := by simp [validTags]
      have h1 : validTags (w :: ws) = validTags ws := by simp [validTags, hv]
      rw [h2, h1, this]
    | true =>
      have h' : ws.all Way.valid = false := by simpa [hv] using h
      have h1 : validTags (w :: ws) = w.tag :: validTags ws := by simp [validTags, hv]
      have h2 : validTags (w.age :: fill t ws) = w.tag :: validTags (fill t ws) := by simp [validTags, hv]
      simp only [if_true]
      rw [h1, h2]
      exact ((ih h').cons _).trans (List.Perm.swap _ _ _)

/-- An eviction leaves distinct tags (43_cache_model R192): the victim is the only way at its rank. -/
theorem nodup_tags_evict {n t : Nat} {ws : List Way} (hr : (validRanks ws).Nodup) (ht : (validTags ws).Nodup)
    (hn : t ∉ validTags ws) : (validTags (evict n t ws)).Nodup := by
  have he : validTags (evict n t ws)
      = (ws.filter Way.valid).map (fun w => if w.rank = n then t else w.tag) := by
    simp [validTags, evict, List.filter_map, Function.comp_def]
  rw [he]
  unfold validTags at ht hn
  unfold validRanks at hr
  generalize ws.filter Way.valid = l at ht hn hr
  induction l with
  | nil => simp
  | cons w l ih =>
    simp only [List.map_cons, List.nodup_cons, List.mem_map, List.mem_cons, not_or, not_exists, not_and] at *
    refine ⟨?_, ih ht.2 hn.2 hr.2⟩
    intro v hv
    have h1 := ht.1 v hv
    have h2 := hr.1 v hv
    have h3 := hn.2 v hv
    split_ifs <;> simp_all

/-! ### Valid ways first -/

theorem filled_of_map {ws vs : List Way} (h : vs.map Way.valid = ws.map Way.valid)
    (hw : ws.Pairwise fun x y => y.valid = true → x.valid = true) :
    vs.Pairwise fun x y => y.valid = true → x.valid = true := by
  have hp : (ws.map Way.valid).Pairwise fun a b => b = true → a = true := List.pairwise_map.2 hw
  rw [← h] at hp
  exact List.pairwise_map.1 hp

theorem filled_promote {t r : Nat} {ws : List Way} (hw : ws.Pairwise fun x y => y.valid = true → x.valid = true) :
    (promote t r ws).Pairwise fun x y => y.valid = true → x.valid = true := by
  refine filled_of_map ?_ hw
  have h := congrArg (List.map Prod.snd) (promote_tags_valid t r ws)
  simpa [Function.comp_def] using h

theorem filled_evict {n t : Nat} {ws : List Way} (hw : ws.Pairwise fun x y => y.valid = true → x.valid = true) :
    (evict n t ws).Pairwise fun x y => y.valid = true → x.valid = true :=
  filled_of_map (by simp [evict, Function.comp_def]) hw

theorem filled_fill {t : Nat} {ws : List Way} (hw : ws.Pairwise fun x y => y.valid = true → x.valid = true) :
    (fill t ws).Pairwise fun x y => y.valid = true → x.valid = true := by
  induction ws with
  | nil => simp [fill]
  | cons w ws ih =>
    unfold fill
    cases hv : w.valid with
    | false =>
      simp only [Bool.false_eq_true, if_false]
      refine List.pairwise_cons.2 ⟨fun _ _ _ => rfl, ?_⟩
      exact filled_of_map (by simp [Function.comp_def]) (List.pairwise_cons.1 hw).2
    | true =>
      simp only [if_true]
      exact List.pairwise_cons.2 ⟨fun _ _ _ => by simp [hv], ih (List.pairwise_cons.1 hw).2⟩

/-! ### One lookup keeps what holds of a set -/

/-- A lookup of a tag in range keeps `SetOk` (43_cache_model R191, R192, R194, 10_state R30). -/
theorem setOk_accessSet {c : CacheConfig} {t : Nat} {ws : List Way} (h : SetOk c ws)
    (ht : t < 2 ^ (32 - offsetBits c - indexBits c)) : SetOk c (accessSet c.ways t ws).2 := by
  rcases accessSet_cases c.ways t ws with ⟨m, hm, he⟩ | ⟨hm, hv, he⟩ | ⟨hm, hv, he⟩ <;> rw [he] <;> dsimp only
  · exact {
      ways := by simp [h.ways]
      ranks := lru_promote h.ranks hm
      tags := by rw [validTags_promote]; exact h.tags
      filled := filled_promote h.filled
      range := fun w hw => by
        obtain ⟨v, hv, h1, _, _⟩ := mem_promote hw
        rw [h1]; exact h.range v hv
      filler := fun w hw hf => by
        obtain ⟨v, hv, _, h2, h3⟩ := mem_promote hw
        rw [hf] at h2
        rw [h3 h2.symm]; exact h.filler v hv h2.symm }
  · exact {
      ways := by simp [h.ways]
      ranks := lru_fill h.ranks hv
      tags := (validTags_fill hv).nodup_iff.2 (List.nodup_cons.2 ⟨not_mem_validTags hm, h.tags⟩)
      filled := filled_fill h.filled
      range := fun w hw => by
        rcases mem_fill hw with rfl | ⟨v, hv, h1, _, _⟩
        · exact ht
        · rw [h1]; exact h.range v hv
      filler := fun w hw hf => by
        rcases mem_fill hw with rfl | ⟨v, hv, _, h2, h3⟩
        · simp at hf
        · rw [hf] at h2
          rw [h3 h2.symm]; exact h.filler v hv h2.symm }
  · have hlen := h.ways
    exact {
      ways := by simp [h.ways]
      ranks := by rw [← hlen]; exact lru_evict h.ranks hv
      tags := nodup_tags_evict h.ranks.nodup h.tags (not_mem_validTags hm)
      filled := filled_evict h.filled
      range := fun w hw => by
        obtain ⟨v, hv, rfl⟩ := List.mem_map.1 hw
        dsimp only; split
        · exact ht
        · exact h.range v hv
      filler := fun w hw hf => by
        obtain ⟨v, hvm, rfl⟩ := List.mem_map.1 hw
        have := List.all_eq_true.1 hv v hvm
        simp [this] at hf }

/-- The tag of an address is in range (43_cache_model R182, R183). -/
theorem tagOf_lt (c : CacheConfig) (a : Word) : tagOf c a < 2 ^ (32 - offsetBits c - indexBits c) := by
  unfold tagOf
  rw [Nat.shiftRight_eq_div_pow, Nat.div_lt_iff_lt_mul (by positivity), ← pow_add]
  refine lt_of_lt_of_le a.isLt (Nat.pow_le_pow_right (by norm_num) (by omega))

/-- The set index of an address is the index of a set (43_cache_model R183). -/
theorem setIndex_lt {c : CacheConfig} (h : validConfig c = true) (a : Word) : setIndex c a < setCount c := by
  unfold setIndex
  apply Nat.mod_lt
  simp only [validConfig, isPow2, Bool.and_eq_true, bne_iff_ne, ne_eq] at h
  exact Nat.pos_of_ne_zero h.2.1

end Sys2Proof.Machine
end

