-- ==== Sys2Proof/Laws/State.lean ====
section
/-! SUPPORT. One lemma per field per shared operation: what each operation of Machine/Ops.lean leaves in each
field of the state. With them no later proof unfolds a record update. -/

namespace Sys2Proof.Machine

/-! `callExecutor` -/

@[simp] theorem callExecutor_params (s : State) : s.callExecutor.params = s.params := rfl
@[simp] theorem callExecutor_slot (s : State) : s.callExecutor.slot = s.slot := rfl
@[simp] theorem callExecutor_hist (s : State) : s.callExecutor.hist = s.hist := rfl
@[simp] theorem callExecutor_stall (s : State) : s.callExecutor.stall = s.stall := rfl
@[simp] theorem callExecutor_flush (s : State) : s.callExecutor.flush = s.flush := rfl
@[simp] theorem callExecutor_dMissInMem (s : State) : s.callExecutor.dMissInMem = s.dMissInMem := rfl
@[simp] theorem callExecutor_halted (s : State) : s.callExecutor.halted = s.halted := rfl
@[simp] theorem callExecutor_drain (s : State) : s.callExecutor.drain = s.drain := rfl
@[simp] theorem callExecutor_status (s : State) : s.callExecutor.status = s.status := rfl
@[simp] theorem callExecutor_cycle (s : State) : s.callExecutor.cycle = s.cycle := rfl
@[simp] theorem callExecutor_icache (s : State) : s.callExecutor.icache = s.icache := rfl
@[simp] theorem callExecutor_dcache (s : State) : s.callExecutor.dcache = s.dcache := rfl
@[simp] theorem callExecutor_stats (s : State) : s.callExecutor.stats = s.stats := rfl
@[simp] theorem callExecutor_trace (s : State) : s.callExecutor.trace = s.trace := rfl
@[simp] theorem callExecutor_input (s : State) : s.callExecutor.input = s.input.tail := rfl
@[simp] theorem callExecutor_calls (s : State) : s.callExecutor.calls = s.calls + 1 := rfl

/-! `shiftAll` -/

@[simp] theorem shiftAll_params (n : Slot) (a : Touched) (s : State) : (shiftAll n a s).params = s.params := rfl
@[simp] theorem shiftAll_slot (n : Slot) (a : Touched) (s : State) : (shiftAll n a s).slot = s.slot.shift n := rfl
@[simp] theorem shiftAll_hist (n : Slot) (a : Touched) (s : State) : (shiftAll n a s).hist = s.hist.shift a := rfl
@[simp] theorem shiftAll_stall (n : Slot) (a : Touched) (s : State) : (shiftAll n a s).stall = s.stall := rfl
@[simp] theorem shiftAll_flush (n : Slot) (a : Touched) (s : State) : (shiftAll n a s).flush = s.flush := rfl
@[simp] theorem shiftAll_dMissInMem (n : Slot) (a : Touched) (s : State) : (shiftAll n a s).dMissInMem = false := rfl
@[simp] theorem shiftAll_halted (n : Slot) (a : Touched) (s : State) : (shiftAll n a s).halted = s.halted := rfl
@[simp] theorem shiftAll_drain (n : Slot) (a : Touched) (s : State) : (shiftAll n a s).drain = s.drain := rfl
@[simp] theorem shiftAll_status (n : Slot) (a : Touched) (s : State) : (shiftAll n a s).status = s.status := rfl
@[simp] theorem shiftAll_cycle (n : Slot) (a : Touched) (s : State) : (shiftAll n a s).cycle = s.cycle := rfl
@[simp] theorem shiftAll_icache (n : Slot) (a : Touched) (s : State) : (shiftAll n a s).icache = s.icache := rfl
@[simp] theorem shiftAll_dcache (n : Slot) (a : Touched) (s : State) : (shiftAll n a s).dcache = s.dcache := rfl
@[simp] theorem shiftAll_stats (n : Slot) (a : Touched) (s : State) : (shiftAll n a s).stats = s.stats := rfl
@[simp] theorem shiftAll_trace (n : Slot) (a : Touched) (s : State) : (shiftAll n a s).trace = s.trace := rfl
@[simp] theorem shiftAll_input (n : Slot) (a : Touched) (s : State) : (shiftAll n a s).input = s.input := rfl
@[simp] theorem shiftAll_calls (n : Slot) (a : Touched) (s : State) : (shiftAll n a s).calls = s.calls := rfl

/-! `holdFetch` -/

@[simp] theorem holdFetch_params (s : State) : (holdFetch s).params = s.params := rfl
@[simp] theorem holdFetch_slot (s : State) : (holdFetch s).slot = s.slot.hold s.params.stallBubbleStage .bubble := rfl
@[simp] theorem holdFetch_hist (s : State) : (holdFetch s).hist = s.hist.hold s.params.stallBubbleStage .noAddr := rfl
@[simp] theorem holdFetch_stall (s : State) : (holdFetch s).stall = s.stall := rfl
@[simp] theorem holdFetch_flush (s : State) : (holdFetch s).flush = s.flush := rfl
@[simp] theorem holdFetch_dMissInMem (s : State) : (holdFetch s).dMissInMem = false := rfl
@[simp] theorem holdFetch_halted (s : State) : (holdFetch s).halted = s.halted := rfl
@[simp] theorem holdFetch_drain (s : State) : (holdFetch s).drain = s.drain := rfl
@[simp] theorem holdFetch_status (s : State) : (holdFetch s).status = s.status := rfl
@[simp] theorem holdFetch_cycle (s : State) : (holdFetch s).cycle = s.cycle := rfl
@[simp] theorem holdFetch_icache (s : State) : (holdFetch s).icache = s.icache := rfl
@[simp] theorem holdFetch_dcache (s : State) : (holdFetch s).dcache = s.dcache := rfl
@[simp] theorem holdFetch_stats (s : State) : (holdFetch s).stats = s.stats := rfl
@[simp] theorem holdFetch_trace (s : State) : (holdFetch s).trace = s.trace := rfl
@[simp] theorem holdFetch_input (s : State) : (holdFetch s).input = s.input := rfl
@[simp] theorem holdFetch_calls (s : State) : (holdFetch s).calls = s.calls := rfl

/-! `freezeMemory` -/

@[simp] theorem freezeMemory_params (s : State) : (freezeMemory s).params = s.params := rfl
@[simp] theorem freezeMemory_slot (s : State) : (freezeMemory s).slot = s.slot.freeze .bubble := rfl
@[simp] theorem freezeMemory_hist (s : State) : (freezeMemory s).hist = s.hist.freeze .noAddr := rfl
@[simp] theorem freezeMemory_stall (s : State) : (freezeMemory s).stall = s.stall := rfl
@[simp] theorem freezeMemory_flush (s : State) : (freezeMemory s).flush = s.flush := rfl
@[simp] theorem freezeMemory_dMissInMem (s : State) : (freezeMemory s).dMissInMem = s.dMissInMem := rfl
@[simp] theorem freezeMemory_halted (s : State) : (freezeMemory s).halted = s.halted := rfl
@[simp] theorem freezeMemory_drain (s : State) : (freezeMemory s).drain = s.drain := rfl
@[simp] theorem freezeMemory_status (s : State) : (freezeMemory s).status = s.status := rfl
@[simp] theorem freezeMemory_cycle (s : State) : (freezeMemory s).cycle = s.cycle := rfl
@[simp] theorem freezeMemory_icache (s : State) : (freezeMemory s).icache = s.icache := rfl
@[simp] theorem freezeMemory_dcache (s : State) : (freezeMemory s).dcache = s.dcache := rfl
@[simp] theorem freezeMemory_stats (s : State) : (freezeMemory s).stats = s.stats := rfl
@[simp] theorem freezeMemory_trace (s : State) : (freezeMemory s).trace = s.trace := rfl
@[simp] theorem freezeMemory_input (s : State) : (freezeMemory s).input = s.input := rfl
@[simp] theorem freezeMemory_calls (s : State) : (freezeMemory s).calls = s.calls := rfl

/-! `enterMemory` -/

@[simp] theorem enterMemory_params (K : Classifier) (s : State) : (enterMemory K s).params = s.params := by
  unfold enterMemory; split
  · rfl
  · dsimp only; split <;> rfl
@[simp] theorem enterMemory_slot (K : Classifier) (s : State) : (enterMemory K s).slot = s.slot := by
  unfold enterMemory; split
  · rfl
  · dsimp only; split <;> rfl
@[simp] theorem enterMemory_hist (K : Classifier) (s : State) : (enterMemory K s).hist = s.hist := by
  unfold enterMemory; split
  · rfl
  · dsimp only; split <;> rfl
@[simp] theorem enterMemory_flush (K : Classifier) (s : State) : (enterMemory K s).flush = s.flush := by
  unfold enterMemory; split
  · rfl
  · dsimp only; split <;> rfl
@[simp] theorem enterMemory_halted (K : Classifier) (s : State) : (enterMemory K s).halted = s.halted := by
  unfold enterMemory; split
  · rfl
  · dsimp only; split <;> rfl
@[simp] theorem enterMemory_drain (K : Classifier) (s : State) : (enterMemory K s).drain = s.drain := by
  unfold enterMemory; split
  · rfl
  · dsimp only; split <;> rfl
@[simp] theorem enterMemory_status (K : Classifier) (s : State) : (enterMemory K s).status = s.status := by
  unfold enterMemory; split
  · rfl
  · dsimp only; split <;> rfl
@[simp] theorem enterMemory_cycle (K : Classifier) (s : State) : (enterMemory K s).cycle = s.cycle := by
  unfold enterMemory; split
  · rfl
  · dsimp only; split <;> rfl
@[simp] theorem enterMemory_icache (K : Classifier) (s : State) : (enterMemory K s).icache = s.icache := by
  unfold enterMemory; split
  · rfl
  · dsimp only; split <;> rfl
@[simp] theorem enterMemory_stats (K : Classifier) (s : State) : (enterMemory K s).stats = s.stats := by
  unfold enterMemory; split
  · rfl
  · dsimp only; split <;> rfl
@[simp] theorem enterMemory_trace (K : Classifier) (s : State) : (enterMemory K s).trace = s.trace := by
  unfold enterMemory; split
  · rfl
  · dsimp only; split <;> rfl
@[simp] theorem enterMemory_input (K : Classifier) (s : State) : (enterMemory K s).input = s.input := by
  unfold enterMemory; split
  · rfl
  · dsimp only; split <;> rfl
@[simp] theorem enterMemory_calls (K : Classifier) (s : State) : (enterMemory K s).calls = s.calls := by
  unfold enterMemory; split
  · rfl
  · dsimp only; split <;> rfl

/-! `lookupFetch` -/

@[simp] theorem lookupFetch_params (pc : Word) (s : State) : (lookupFetch pc s).params = s.params := by
  unfold lookupFetch; dsimp only; split <;> rfl
@[simp] theorem lookupFetch_slot (pc : Word) (s : State) : (lookupFetch pc s).slot = s.slot := by
  unfold lookupFetch; dsimp only; split <;> rfl
@[simp] theorem lookupFetch_hist (pc : Word) (s : State) : (lookupFetch pc s).hist = s.hist := by
  unfold lookupFetch; dsimp only; split <;> rfl
@[simp] theorem lookupFetch_flush (pc : Word) (s : State) : (lookupFetch pc s).flush = s.flush := by
  unfold lookupFetch; dsimp only; split <;> rfl
@[simp] theorem lookupFetch_dMissInMem (pc : Word) (s : State) : (lookupFetch pc s).dMissInMem = s.dMissInMem := by
  unfold lookupFetch; dsimp only; split <;> rfl
@[simp] theorem lookupFetch_halted (pc : Word) (s : State) : (lookupFetch pc s).halted = s.halted := by
  unfold lookupFetch; dsimp only; split <;> rfl
@[simp] theorem lookupFetch_drain (pc : Word) (s : State) : (lookupFetch pc s).drain = s.drain := by
  unfold lookupFetch; dsimp only; split <;> rfl
@[simp] theorem lookupFetch_status (pc : Word) (s : State) : (lookupFetch pc s).status = s.status := by
  unfold lookupFetch; dsimp only; split <;> rfl
@[simp] theorem lookupFetch_cycle (pc : Word) (s : State) : (lookupFetch pc s).cycle = s.cycle := by
  unfold lookupFetch; dsimp only; split <;> rfl
@[simp] theorem lookupFetch_icache (pc : Word) (s : State) : (lookupFetch pc s).icache = (s.icache.access pc false).2 := by
  unfold lookupFetch; dsimp only; split <;> rfl
@[simp] theorem lookupFetch_dcache (pc : Word) (s : State) : (lookupFetch pc s).dcache = s.dcache := by
  unfold lookupFetch; dsimp only; split <;> rfl
@[simp] theorem lookupFetch_stats (pc : Word) (s : State) : (lookupFetch pc s).stats = s.stats := by
  unfold lookupFetch; dsimp only; split <;> rfl
@[simp] theorem lookupFetch_trace (pc : Word) (s : State) : (lookupFetch pc s).trace = s.trace := by
  unfold lookupFetch; dsimp only; split <;> rfl
@[simp] theorem lookupFetch_input (pc : Word) (s : State) : (lookupFetch pc s).input = s.input := by
  unfold lookupFetch; dsimp only; split <;> rfl
@[simp] theorem lookupFetch_calls (pc : Word) (s : State) : (lookupFetch pc s).calls = s.calls := by
  unfold lookupFetch; dsimp only; split <;> rfl

/-! `takeFault` -/

@[simp] theorem takeFault_params (f : RecordFault) (s : State) : (takeFault f s).params = s.params := rfl
@[simp] theorem takeFault_slot (f : RecordFault) (s : State) : (takeFault f s).slot = s.slot := rfl
@[simp] theorem takeFault_hist (f : RecordFault) (s : State) : (takeFault f s).hist = s.hist := rfl
@[simp] theorem takeFault_stall (f : RecordFault) (s : State) : (takeFault f s).stall = s.stall := rfl
@[simp] theorem takeFault_flush (f : RecordFault) (s : State) : (takeFault f s).flush = s.flush + f.flushLength := rfl
@[simp] theorem takeFault_dMissInMem (f : RecordFault) (s : State) : (takeFault f s).dMissInMem = s.dMissInMem := rfl
@[simp] theorem takeFault_halted (f : RecordFault) (s : State) : (takeFault f s).halted = s.halted := rfl
@[simp] theorem takeFault_drain (f : RecordFault) (s : State) : (takeFault f s).drain = s.drain := rfl
@[simp] theorem takeFault_status (f : RecordFault) (s : State) : (takeFault f s).status = s.status := rfl
@[simp] theorem takeFault_cycle (f : RecordFault) (s : State) : (takeFault f s).cycle = s.cycle := rfl
@[simp] theorem takeFault_icache (f : RecordFault) (s : State) : (takeFault f s).icache = s.icache := rfl
@[simp] theorem takeFault_dcache (f : RecordFault) (s : State) : (takeFault f s).dcache = s.dcache := rfl
@[simp] theorem takeFault_stats (f : RecordFault) (s : State) : (takeFault f s).stats = s.stats := rfl
@[simp] theorem takeFault_trace (f : RecordFault) (s : State) : (takeFault f s).trace = s.trace := rfl
@[simp] theorem takeFault_input (f : RecordFault) (s : State) : (takeFault f s).input = s.input := rfl
@[simp] theorem takeFault_calls (f : RecordFault) (s : State) : (takeFault f s).calls = s.calls := rfl

/-! `serveFlush` -/

@[simp] theorem serveFlush_params (s : State) : (serveFlush s).params = s.params := rfl
@[simp] theorem serveFlush_slot (s : State) : (serveFlush s).slot = s.slot := rfl
@[simp] theorem serveFlush_hist (s : State) : (serveFlush s).hist = s.hist := rfl
@[simp] theorem serveFlush_stall (s : State) : (serveFlush s).stall = s.stall := rfl
@[simp] theorem serveFlush_flush (s : State) : (serveFlush s).flush = s.flush - 1 := rfl
@[simp] theorem serveFlush_dMissInMem (s : State) : (serveFlush s).dMissInMem = s.dMissInMem := rfl
@[simp] theorem serveFlush_halted (s : State) : (serveFlush s).halted = s.halted := rfl
@[simp] theorem serveFlush_drain (s : State) : (serveFlush s).drain = s.drain := rfl
@[simp] theorem serveFlush_status (s : State) : (serveFlush s).status = s.status := rfl
@[simp] theorem serveFlush_cycle (s : State) : (serveFlush s).cycle = s.cycle := rfl
@[simp] theorem serveFlush_icache (s : State) : (serveFlush s).icache = s.icache := rfl
@[simp] theorem serveFlush_dcache (s : State) : (serveFlush s).dcache = s.dcache := rfl
@[simp] theorem serveFlush_stats (s : State) : (serveFlush s).stats = { s.stats with flushCycles := s.stats.flushCycles + 1 } := rfl
@[simp] theorem serveFlush_trace (s : State) : (serveFlush s).trace = s.trace := rfl
@[simp] theorem serveFlush_input (s : State) : (serveFlush s).input = s.input := rfl
@[simp] theorem serveFlush_calls (s : State) : (serveFlush s).calls = s.calls := rfl

/-! `latchHalt` -/

@[simp] theorem latchHalt_params (s : State) : (latchHalt s).params = s.params := rfl
@[simp] theorem latchHalt_slot (s : State) : (latchHalt s).slot = s.slot := rfl
@[simp] theorem latchHalt_hist (s : State) : (latchHalt s).hist = s.hist := rfl
@[simp] theorem latchHalt_stall (s : State) : (latchHalt s).stall = s.stall := rfl
@[simp] theorem latchHalt_flush (s : State) : (latchHalt s).flush = s.flush := rfl
@[simp] theorem latchHalt_dMissInMem (s : State) : (latchHalt s).dMissInMem = s.dMissInMem := rfl
@[simp] theorem latchHalt_halted (s : State) : (latchHalt s).halted = true := rfl
@[simp] theorem latchHalt_drain (s : State) : (latchHalt s).drain = 4 := rfl
@[simp] theorem latchHalt_status (s : State) : (latchHalt s).status = s.status := rfl
@[simp] theorem latchHalt_cycle (s : State) : (latchHalt s).cycle = s.cycle := rfl
@[simp] theorem latchHalt_icache (s : State) : (latchHalt s).icache = s.icache := rfl
@[simp] theorem latchHalt_dcache (s : State) : (latchHalt s).dcache = s.dcache := rfl
@[simp] theorem latchHalt_stats (s : State) : (latchHalt s).stats = s.stats := rfl
@[simp] theorem latchHalt_trace (s : State) : (latchHalt s).trace = s.trace := rfl
@[simp] theorem latchHalt_input (s : State) : (latchHalt s).input = s.input := rfl
@[simp] theorem latchHalt_calls (s : State) : (latchHalt s).calls = s.calls := rfl

/-! `applyFlags` -/

@[simp] theorem applyFlags_params (r : Record) (s : State) : (applyFlags r s).params = s.params := by
  unfold applyFlags; split
  · rfl
  · split <;> rfl
@[simp] theorem applyFlags_slot (r : Record) (s : State) : (applyFlags r s).slot = s.slot := by
  unfold applyFlags; split
  · rfl
  · split <;> rfl
@[simp] theorem applyFlags_hist (r : Record) (s : State) : (applyFlags r s).hist = s.hist := by
  unfold applyFlags; split
  · rfl
  · split <;> rfl
@[simp] theorem applyFlags_stall (r : Record) (s : State) : (applyFlags r s).stall = s.stall := by
  unfold applyFlags; split
  · rfl
  · split <;> rfl
@[simp] theorem applyFlags_dMissInMem (r : Record) (s : State) : (applyFlags r s).dMissInMem = s.dMissInMem := by
  unfold applyFlags; split
  · rfl
  · split <;> rfl
@[simp] theorem applyFlags_status (r : Record) (s : State) : (applyFlags r s).status = s.status := by
  unfold applyFlags; split
  · rfl
  · split <;> rfl
@[simp] theorem applyFlags_cycle (r : Record) (s : State) : (applyFlags r s).cycle = s.cycle := by
  unfold applyFlags; split
  · rfl
  · split <;> rfl
@[simp] theorem applyFlags_icache (r : Record) (s : State) : (applyFlags r s).icache = s.icache := by
  unfold applyFlags; split
  · rfl
  · split <;> rfl
@[simp] theorem applyFlags_dcache (r : Record) (s : State) : (applyFlags r s).dcache = s.dcache := by
  unfold applyFlags; split
  · rfl
  · split <;> rfl
@[simp] theorem applyFlags_stats (r : Record) (s : State) : (applyFlags r s).stats = s.stats := by
  unfold applyFlags; split
  · rfl
  · split <;> rfl
@[simp] theorem applyFlags_trace (r : Record) (s : State) : (applyFlags r s).trace = s.trace := by
  unfold applyFlags; split
  · rfl
  · split <;> rfl
@[simp] theorem applyFlags_input (r : Record) (s : State) : (applyFlags r s).input = s.input := by
  unfold applyFlags; split
  · rfl
  · split <;> rfl
@[simp] theorem applyFlags_calls (r : Record) (s : State) : (applyFlags r s).calls = s.calls := by
  unfold applyFlags; split
  · rfl
  · split <;> rfl

/-! `scheduleHazard` -/

@[simp] theorem scheduleHazard_params (h : Hazard) (s : State) : (scheduleHazard h s).params = s.params := rfl
@[simp] theorem scheduleHazard_slot (h : Hazard) (s : State) : (scheduleHazard h s).slot = s.slot := rfl
@[simp] theorem scheduleHazard_hist (h : Hazard) (s : State) : (scheduleHazard h s).hist = s.hist := rfl
@[simp] theorem scheduleHazard_stall (h : Hazard) (s : State) : (scheduleHazard h s).stall = { s.stall with exHaz := s.stall.exHaz + h.exCycles, decHaz := s.stall.decHaz + h.decCycles s.params } := rfl
@[simp] theorem scheduleHazard_flush (h : Hazard) (s : State) : (scheduleHazard h s).flush = s.flush := rfl
@[simp] theorem scheduleHazard_dMissInMem (h : Hazard) (s : State) : (scheduleHazard h s).dMissInMem = s.dMissInMem := rfl
@[simp] theorem scheduleHazard_halted (h : Hazard) (s : State) : (scheduleHazard h s).halted = s.halted := rfl
@[simp] theorem scheduleHazard_drain (h : Hazard) (s : State) : (scheduleHazard h s).drain = s.drain := rfl
@[simp] theorem scheduleHazard_status (h : Hazard) (s : State) : (scheduleHazard h s).status = s.status := rfl
@[simp] theorem scheduleHazard_cycle (h : Hazard) (s : State) : (scheduleHazard h s).cycle = s.cycle := rfl
@[simp] theorem scheduleHazard_icache (h : Hazard) (s : State) : (scheduleHazard h s).icache = s.icache := rfl
@[simp] theorem scheduleHazard_dcache (h : Hazard) (s : State) : (scheduleHazard h s).dcache = s.dcache := rfl
@[simp] theorem scheduleHazard_stats (h : Hazard) (s : State) : (scheduleHazard h s).stats = s.stats := rfl
@[simp] theorem scheduleHazard_trace (h : Hazard) (s : State) : (scheduleHazard h s).trace = s.trace := rfl
@[simp] theorem scheduleHazard_input (h : Hazard) (s : State) : (scheduleHazard h s).input = s.input := rfl
@[simp] theorem scheduleHazard_calls (h : Hazard) (s : State) : (scheduleHazard h s).calls = s.calls := rfl

/-! `detectHazard` -/

@[simp] theorem detectHazard_params (K : Classifier) (f : Fetched) (s : State) : (detectHazard K f s).params = s.params := rfl
@[simp] theorem detectHazard_slot (K : Classifier) (f : Fetched) (s : State) : (detectHazard K f s).slot = s.slot := rfl
@[simp] theorem detectHazard_hist (K : Classifier) (f : Fetched) (s : State) : (detectHazard K f s).hist = s.hist := rfl
@[simp] theorem detectHazard_flush (K : Classifier) (f : Fetched) (s : State) : (detectHazard K f s).flush = s.flush := rfl
@[simp] theorem detectHazard_dMissInMem (K : Classifier) (f : Fetched) (s : State) : (detectHazard K f s).dMissInMem = s.dMissInMem := rfl
@[simp] theorem detectHazard_halted (K : Classifier) (f : Fetched) (s : State) : (detectHazard K f s).halted = s.halted := rfl
@[simp] theorem detectHazard_drain (K : Classifier) (f : Fetched) (s : State) : (detectHazard K f s).drain = s.drain := rfl
@[simp] theorem detectHazard_status (K : Classifier) (f : Fetched) (s : State) : (detectHazard K f s).status = s.status := rfl
@[simp] theorem detectHazard_cycle (K : Classifier) (f : Fetched) (s : State) : (detectHazard K f s).cycle = s.cycle := rfl
@[simp] theorem detectHazard_icache (K : Classifier) (f : Fetched) (s : State) : (detectHazard K f s).icache = s.icache := rfl
@[simp] theorem detectHazard_dcache (K : Classifier) (f : Fetched) (s : State) : (detectHazard K f s).dcache = s.dcache := rfl
@[simp] theorem detectHazard_stats (K : Classifier) (f : Fetched) (s : State) : (detectHazard K f s).stats = s.stats := rfl
@[simp] theorem detectHazard_trace (K : Classifier) (f : Fetched) (s : State) : (detectHazard K f s).trace = s.trace := rfl
@[simp] theorem detectHazard_input (K : Classifier) (f : Fetched) (s : State) : (detectHazard K f s).input = s.input := rfl
@[simp] theorem detectHazard_calls (K : Classifier) (f : Fetched) (s : State) : (detectHazard K f s).calls = s.calls := rfl

/-! `serveStall` -/

@[simp] theorem serveStall_params (c : StallKind) (s : State) : (serveStall c s).params = s.params := rfl
@[simp] theorem serveStall_slot (c : StallKind) (s : State) : (serveStall c s).slot = s.slot := rfl
@[simp] theorem serveStall_hist (c : StallKind) (s : State) : (serveStall c s).hist = s.hist := rfl
@[simp] theorem serveStall_stall (c : StallKind) (s : State) : (serveStall c s).stall = s.stall.serve c := rfl
@[simp] theorem serveStall_flush (c : StallKind) (s : State) : (serveStall c s).flush = s.flush := rfl
@[simp] theorem serveStall_dMissInMem (c : StallKind) (s : State) : (serveStall c s).dMissInMem = s.dMissInMem := rfl
@[simp] theorem serveStall_halted (c : StallKind) (s : State) : (serveStall c s).halted = s.halted := rfl
@[simp] theorem serveStall_drain (c : StallKind) (s : State) : (serveStall c s).drain = s.drain := rfl
@[simp] theorem serveStall_status (c : StallKind) (s : State) : (serveStall c s).status = s.status := rfl
@[simp] theorem serveStall_cycle (c : StallKind) (s : State) : (serveStall c s).cycle = s.cycle := rfl
@[simp] theorem serveStall_icache (c : StallKind) (s : State) : (serveStall c s).icache = s.icache := rfl
@[simp] theorem serveStall_dcache (c : StallKind) (s : State) : (serveStall c s).dcache = s.dcache := rfl
@[simp] theorem serveStall_stats (c : StallKind) (s : State) : (serveStall c s).stats = s.stats.countStall c := rfl
@[simp] theorem serveStall_trace (c : StallKind) (s : State) : (serveStall c s).trace = s.trace := rfl
@[simp] theorem serveStall_input (c : StallKind) (s : State) : (serveStall c s).input = s.input := rfl
@[simp] theorem serveStall_calls (c : StallKind) (s : State) : (serveStall c s).calls = s.calls := rfl

/-! `finishCycle` -/

@[simp] theorem finishCycle_params (s : State) : (finishCycle s).params = s.params := rfl
@[simp] theorem finishCycle_slot (s : State) : (finishCycle s).slot = s.slot := rfl
@[simp] theorem finishCycle_hist (s : State) : (finishCycle s).hist = s.hist := rfl
@[simp] theorem finishCycle_stall (s : State) : (finishCycle s).stall = s.stall := rfl
@[simp] theorem finishCycle_flush (s : State) : (finishCycle s).flush = s.flush := rfl
@[simp] theorem finishCycle_dMissInMem (s : State) : (finishCycle s).dMissInMem = s.dMissInMem := rfl
@[simp] theorem finishCycle_halted (s : State) : (finishCycle s).halted = s.halted := rfl
@[simp] theorem finishCycle_drain (s : State) : (finishCycle s).drain = s.drain := rfl
@[simp] theorem finishCycle_status (s : State) : (finishCycle s).status = s.status := rfl
@[simp] theorem finishCycle_cycle (s : State) : (finishCycle s).cycle = s.cycle + 1 := rfl
@[simp] theorem finishCycle_icache (s : State) : (finishCycle s).icache = s.icache := rfl
@[simp] theorem finishCycle_dcache (s : State) : (finishCycle s).dcache = s.dcache := rfl
@[simp] theorem finishCycle_stats (s : State) : (finishCycle s).stats = s.stats := rfl
@[simp] theorem finishCycle_trace (s : State) : (finishCycle s).trace = s.trace ++ [⟨s.cycle + 1, s.slot⟩] := rfl
@[simp] theorem finishCycle_input (s : State) : (finishCycle s).input = s.input := rfl
@[simp] theorem finishCycle_calls (s : State) : (finishCycle s).calls = s.calls := rfl

/-! `drainOne` -/

@[simp] theorem drainOne_params (s : State) : (drainOne s).params = s.params := by
  unfold drainOne; split <;> rfl
@[simp] theorem drainOne_slot (s : State) : (drainOne s).slot = s.slot := by
  unfold drainOne; split <;> rfl
@[simp] theorem drainOne_hist (s : State) : (drainOne s).hist = s.hist := by
  unfold drainOne; split <;> rfl
@[simp] theorem drainOne_stall (s : State) : (drainOne s).stall = s.stall := by
  unfold drainOne; split <;> rfl
@[simp] theorem drainOne_flush (s : State) : (drainOne s).flush = s.flush := by
  unfold drainOne; split <;> rfl
@[simp] theorem drainOne_dMissInMem (s : State) : (drainOne s).dMissInMem = s.dMissInMem := by
  unfold drainOne; split <;> rfl
@[simp] theorem drainOne_halted (s : State) : (drainOne s).halted = s.halted := by
  unfold drainOne; split <;> rfl
@[simp] theorem drainOne_cycle (s : State) : (drainOne s).cycle = s.cycle := by
  unfold drainOne; split <;> rfl
@[simp] theorem drainOne_icache (s : State) : (drainOne s).icache = s.icache := by
  unfold drainOne; split <;> rfl
@[simp] theorem drainOne_dcache (s : State) : (drainOne s).dcache = s.dcache := by
  unfold drainOne; split <;> rfl
@[simp] theorem drainOne_stats (s : State) : (drainOne s).stats = s.stats := by
  unfold drainOne; split <;> rfl
@[simp] theorem drainOne_trace (s : State) : (drainOne s).trace = s.trace := by
  unfold drainOne; split <;> rfl
@[simp] theorem drainOne_input (s : State) : (drainOne s).input = s.input := by
  unfold drainOne; split <;> rfl
@[simp] theorem drainOne_calls (s : State) : (drainOne s).calls = s.calls := by
  unfold drainOne; split <;> rfl

/-! `countInstr` -/

@[simp] theorem countInstr_params (s : State) : (countInstr s).params = s.params := rfl
@[simp] theorem countInstr_slot (s : State) : (countInstr s).slot = s.slot := rfl
@[simp] theorem countInstr_hist (s : State) : (countInstr s).hist = s.hist := rfl
@[simp] theorem countInstr_stall (s : State) : (countInstr s).stall = s.stall := rfl
@[simp] theorem countInstr_flush (s : State) : (countInstr s).flush = s.flush := rfl
@[simp] theorem countInstr_dMissInMem (s : State) : (countInstr s).dMissInMem = s.dMissInMem := rfl
@[simp] theorem countInstr_halted (s : State) : (countInstr s).halted = s.halted := rfl
@[simp] theorem countInstr_drain (s : State) : (countInstr s).drain = s.drain := rfl
@[simp] theorem countInstr_status (s : State) : (countInstr s).status = s.status := rfl
@[simp] theorem countInstr_cycle (s : State) : (countInstr s).cycle = s.cycle := rfl
@[simp] theorem countInstr_icache (s : State) : (countInstr s).icache = s.icache := rfl
@[simp] theorem countInstr_dcache (s : State) : (countInstr s).dcache = s.dcache := rfl
@[simp] theorem countInstr_stats (s : State) : (countInstr s).stats = { s.stats with dynInstr := s.stats.dynInstr + 1 } := rfl
@[simp] theorem countInstr_trace (s : State) : (countInstr s).trace = s.trace := rfl
@[simp] theorem countInstr_input (s : State) : (countInstr s).input = s.input := rfl
@[simp] theorem countInstr_calls (s : State) : (countInstr s).calls = s.calls := rfl

/-! `abortCycle` -/

@[simp] theorem abortCycle_params (s : State) : (abortCycle s).params = s.params := rfl
@[simp] theorem abortCycle_slot (s : State) : (abortCycle s).slot = s.slot := rfl
@[simp] theorem abortCycle_hist (s : State) : (abortCycle s).hist = s.hist := rfl
@[simp] theorem abortCycle_stall (s : State) : (abortCycle s).stall = s.stall := rfl
@[simp] theorem abortCycle_flush (s : State) : (abortCycle s).flush = s.flush := rfl
@[simp] theorem abortCycle_dMissInMem (s : State) : (abortCycle s).dMissInMem = s.dMissInMem := rfl
@[simp] theorem abortCycle_halted (s : State) : (abortCycle s).halted = s.halted := rfl
@[simp] theorem abortCycle_drain (s : State) : (abortCycle s).drain = s.drain := rfl
@[simp] theorem abortCycle_status (s : State) : (abortCycle s).status = .error := rfl
@[simp] theorem abortCycle_cycle (s : State) : (abortCycle s).cycle = s.cycle := rfl
@[simp] theorem abortCycle_icache (s : State) : (abortCycle s).icache = s.icache := rfl
@[simp] theorem abortCycle_dcache (s : State) : (abortCycle s).dcache = s.dcache := rfl
@[simp] theorem abortCycle_stats (s : State) : (abortCycle s).stats = s.stats := rfl
@[simp] theorem abortCycle_trace (s : State) : (abortCycle s).trace = s.trace := rfl
@[simp] theorem abortCycle_input (s : State) : (abortCycle s).input = s.input.tail := rfl
@[simp] theorem abortCycle_calls (s : State) : (abortCycle s).calls = s.calls + 1 := rfl

/-! `readyFor` -/

@[simp] theorem readyFor_params (s : State) (r : Record) : (s.readyFor r).params = s.params := rfl
@[simp] theorem readyFor_slot (s : State) (r : Record) : (s.readyFor r).slot = s.slot := rfl
@[simp] theorem readyFor_hist (s : State) (r : Record) : (s.readyFor r).hist = s.hist := rfl
@[simp] theorem readyFor_stall (s : State) (r : Record) : (s.readyFor r).stall = ⟨0, 0, 0, 0⟩ := rfl
@[simp] theorem readyFor_flush (s : State) (r : Record) : (s.readyFor r).flush = 0 := rfl
@[simp] theorem readyFor_dMissInMem (s : State) (r : Record) : (s.readyFor r).dMissInMem = s.dMissInMem := rfl
@[simp] theorem readyFor_halted (s : State) (r : Record) : (s.readyFor r).halted = false := rfl
@[simp] theorem readyFor_drain (s : State) (r : Record) : (s.readyFor r).drain = 0 := rfl
@[simp] theorem readyFor_status (s : State) (r : Record) : (s.readyFor r).status = .running := rfl
@[simp] theorem readyFor_cycle (s : State) (r : Record) : (s.readyFor r).cycle = s.cycle := rfl
@[simp] theorem readyFor_icache (s : State) (r : Record) : (s.readyFor r).icache = s.icache := rfl
@[simp] theorem readyFor_dcache (s : State) (r : Record) : (s.readyFor r).dcache = s.dcache := rfl
@[simp] theorem readyFor_stats (s : State) (r : Record) : (s.readyFor r).stats = s.stats := rfl
@[simp] theorem readyFor_trace (s : State) (r : Record) : (s.readyFor r).trace = s.trace := rfl
@[simp] theorem readyFor_input (s : State) (r : Record) : (s.readyFor r).input = .record r :: s.input := rfl
@[simp] theorem readyFor_calls (s : State) (r : Record) : (s.readyFor r).calls = s.calls := rfl

/-! Selectors of the moved pipelines -/

@[simp] theorem Pipe.shift_fetch {α : Type} (n : α) (p : Pipe α) : (p.shift n).fetch = n := rfl
@[simp] theorem Pipe.shift_decode {α : Type} (n : α) (p : Pipe α) : (p.shift n).decode = p.fetch := rfl
@[simp] theorem Pipe.shift_execute {α : Type} (n : α) (p : Pipe α) : (p.shift n).execute = p.decode := rfl
@[simp] theorem Pipe.shift_memory {α : Type} (n : α) (p : Pipe α) : (p.shift n).memory = p.execute := rfl
@[simp] theorem Pipe.shift_writeback {α : Type} (n : α) (p : Pipe α) : (p.shift n).writeback = p.memory := rfl
@[simp] theorem Pipe.freeze_fetch {α : Type} (e : α) (p : Pipe α) : (p.freeze e).fetch = p.fetch := rfl
@[simp] theorem Pipe.freeze_decode {α : Type} (e : α) (p : Pipe α) : (p.freeze e).decode = p.decode := rfl
@[simp] theorem Pipe.freeze_execute {α : Type} (e : α) (p : Pipe α) : (p.freeze e).execute = p.execute := rfl
@[simp] theorem Pipe.freeze_memory {α : Type} (e : α) (p : Pipe α) : (p.freeze e).memory = p.memory := rfl
@[simp] theorem Pipe.freeze_writeback {α : Type} (e : α) (p : Pipe α) : (p.freeze e).writeback = e := rfl
@[simp] theorem Pipe.hold_fetch {α : Type} (b : BubbleStage) (e : α) (p : Pipe α) : (p.hold b e).fetch = p.fetch := by
  cases b <;> rfl
@[simp] theorem Pipe.hold_memory {α : Type} (b : BubbleStage) (e : α) (p : Pipe α) :
    (p.hold b e).memory = p.execute := by
  cases b <;> rfl
@[simp] theorem Pipe.hold_writeback {α : Type} (b : BubbleStage) (e : α) (p : Pipe α) :
    (p.hold b e).writeback = p.memory := by
  cases b <;> rfl
@[simp] theorem Pipe.hold_execute_decode {α : Type} (e : α) (p : Pipe α) : (p.hold .execute e).decode = p.decode := rfl
@[simp] theorem Pipe.hold_execute_execute {α : Type} (e : α) (p : Pipe α) : (p.hold .execute e).execute = e := rfl
@[simp] theorem Pipe.hold_decode_decode {α : Type} (e : α) (p : Pipe α) : (p.hold .decode e).decode = e := rfl
@[simp] theorem Pipe.hold_decode_execute {α : Type} (e : α) (p : Pipe α) : (p.hold .decode e).execute = p.decode := rfl
@[simp] theorem Pipe.get_fill {α : Type} (a : α) (st : Stage) : (Pipe.fill a).get st = a := by cases st <;> rfl

/-! Selectors of the changed fields that depend on a case -/

theorem enterMemory_none {K : Classifier} {s : State} (h : memoryLookup K s = none) : enterMemory K s = s := by
  simp [enterMemory, h]

@[simp] theorem enterMemory_iMiss (K : Classifier) (s : State) : (enterMemory K s).stall.iMiss = s.stall.iMiss := by
  unfold enterMemory; split
  · rfl
  · dsimp only; split <;> rfl
@[simp] theorem enterMemory_decHaz (K : Classifier) (s : State) : (enterMemory K s).stall.decHaz = s.stall.decHaz := by
  unfold enterMemory; split
  · rfl
  · dsimp only; split <;> rfl
@[simp] theorem enterMemory_exHaz (K : Classifier) (s : State) : (enterMemory K s).stall.exHaz = s.stall.exHaz := by
  unfold enterMemory; split
  · rfl
  · dsimp only; split <;> rfl
@[simp] theorem lookupFetch_dMiss (pc : Word) (s : State) : (lookupFetch pc s).stall.dMiss = s.stall.dMiss := by
  unfold lookupFetch; dsimp only; split <;> rfl
@[simp] theorem lookupFetch_decHaz (pc : Word) (s : State) : (lookupFetch pc s).stall.decHaz = s.stall.decHaz := by
  unfold lookupFetch; dsimp only; split <;> rfl
@[simp] theorem lookupFetch_exHaz (pc : Word) (s : State) : (lookupFetch pc s).stall.exHaz = s.stall.exHaz := by
  unfold lookupFetch; dsimp only; split <;> rfl
@[simp] theorem detectHazard_iMiss (K : Classifier) (f : Fetched) (s : State) :
    (detectHazard K f s).stall.iMiss = s.stall.iMiss := rfl
@[simp] theorem detectHazard_dMiss (K : Classifier) (f : Fetched) (s : State) :
    (detectHazard K f s).stall.dMiss = s.stall.dMiss := rfl

end Sys2Proof.Machine
end

