-- ==== Sys2Proof/Laws/Cycle.lean ====
section
/-! SUPPORT. What each shared operation of a cycle can do, said once: the data-cache timing, the instruction-cache timing,
the flags of a record, the hazard detection and the drain accounting as record updates in the terms of Safety. -/

namespace Sys2Proof.Machine

/-- The whole of `enterMemory` (44_pipeline_engine R229, R230) in terms of what enters Memory. -/
theorem enterMemory_eq (K : Classifier) (s : State) :
    enterMemory K s = { s with
      dcache := (entering K s.dcache s.slot.memory s.hist.memory).1
      stall := { s.stall with dMiss := s.stall.dMiss + (entering K s.dcache s.slot.memory s.hist.memory).2.1 }
      dMissInMem := s.dMissInMem || (entering K s.dcache s.slot.memory s.hist.memory).2.2 } := by
  unfold enterMemory memoryLookup entering
  rcases hs : s.slot.memory with _ | w
  · simp [Slot.kind, OpKind.isMem, OpKind.isLoad, OpKind.isStore]
  · rcases ha : s.hist.memory with _ | a
    · simp
    · by_cases hl : K.classify w = .load
      · cases hh : (s.dcache.access a false).1 <;>
          simp [Slot.kind, OpKind.isMem, OpKind.isLoad, OpKind.isStore, hl, hh,
            show (OpKind.load == OpKind.store) = false from rfl]
      · by_cases hst : K.classify w = .store
        · cases hh : (s.dcache.access a true).1 <;>
            simp [Slot.kind, OpKind.isMem, OpKind.isLoad, OpKind.isStore, hst, hh]
        · simp [Slot.kind, OpKind.isMem, OpKind.isLoad, OpKind.isStore, hl, hst]

/-- What entering Memory can do to the data side: nothing, a hit, or a miss (44_pipeline_engine R229). -/
theorem entering_cases (K : Classifier) (c : Cache) (p : Slot) (ad : Touched) :
    (entering K c p ad = (c, 0, false) ∧ ((p.kind K).isMem = false ∨ ad = .noAddr)) ∨
    (∃ w a, p = .instr w ∧ ad = .addr a ∧ (K.classify w).isMem = true ∧
      (c.access a (K.classify w).isStore).1 = true ∧
      entering K c p ad = ((c.access a (K.classify w).isStore).2, 0, false)) ∨
    (∃ w a, p = .instr w ∧ ad = .addr a ∧ (K.classify w).isMem = true ∧
      (c.access a (K.classify w).isStore).1 = false ∧
      entering K c p ad = ((c.access a (K.classify w).isStore).2, c.cfg.missLatencyCycles, true)) := by
  unfold entering
  rcases p with _ | w
  · exact .inl ⟨rfl, .inl rfl⟩
  · rcases ad with _ | a
    · exact .inl ⟨rfl, .inr rfl⟩
    · by_cases hm : K.classify w = .load ∨ K.classify w = .store
      · have hm' : (K.classify w).isMem = true := by
          rcases hm with h | h <;> simp [h, OpKind.isMem, OpKind.isLoad, OpKind.isStore]
        have he : decide (K.classify w = .store) = (K.classify w).isStore := by
          rcases hm with h | h <;> simp [h, OpKind.isStore]
        simp only [if_pos hm, he]
        cases hh : (c.access a (K.classify w).isStore).1
        · exact .inr (.inr ⟨w, a, rfl, rfl, hm', hh, by simp⟩)
        · exact .inr (.inl ⟨w, a, rfl, rfl, hm', hh, by simp⟩)
      · refine .inl ⟨by simp only [if_neg hm], .inl ?_⟩
        rw [not_or] at hm
        simp [Slot.kind, OpKind.isMem, OpKind.isLoad, OpKind.isStore, hm.1, hm.2]

/-- Entering Memory keeps the configuration of the data cache. -/
@[simp] theorem entering_cfg (K : Classifier) (c : Cache) (p : Slot) (ad : Touched) :
    (entering K c p ad).1.cfg = c.cfg := by
  rcases entering_cases K c p ad with ⟨h, _⟩ | ⟨w, a, _, _, _, _, h⟩ | ⟨w, a, _, _, _, _, h⟩ <;> rw [h] <;> rfl

/-- The stall counters after the instruction-cache lookup (44_pipeline_engine R228, R230). -/
@[simp] theorem lookupFetch_stall (pc : Word) (s : State) :
    (lookupFetch pc s).stall = { s.stall with
      iMiss := s.stall.iMiss + (if (s.icache.access pc false).1 then 0 else s.icache.cfg.missLatencyCycles) } := by
  unfold lookupFetch
  cases h : (s.icache.access pc false).1 <;> simp [h]

/-- The flush counter after a record's flags (44_pipeline_engine R220, R221, 60_exceptions R281, R282, R285). -/
@[simp] theorem applyFlags_flush (r : Record) (s : State) :
    (applyFlags r s).flush =
      if r.halt then s.flush else if r.valid = false then s.flush + 2 else if r.overflow then s.flush + 3
      else s.flush := by
  unfold applyFlags recordFault
  cases r.halt <;> cases r.valid <;> cases r.overflow <;> rfl

/-- `halted` after a record's flags (44_pipeline_engine R220). -/
@[simp] theorem applyFlags_halted (r : Record) (s : State) :
    (applyFlags r s).halted = if r.halt then true else s.halted := by
  unfold applyFlags recordFault
  cases r.halt <;> cases r.valid <;> cases r.overflow <;> rfl

/-- `drain` after a record's flags (44_pipeline_engine R220). -/
@[simp] theorem applyFlags_drain (r : Record) (s : State) :
    (applyFlags r s).drain = if r.halt then 4 else s.drain := by
  unfold applyFlags recordFault
  cases r.halt <;> cases r.valid <;> cases r.overflow <;> rfl

/-- A producer of the kinds `ks` in a slot, by the slot's kind and destination. -/
theorem producerIn_eq (K : Classifier) (ks : List OpKind) (srcs : List RegNum) (p : Slot) (hb : OpKind.bubble ∉ ks) :
    producerIn K ks srcs p = (ks.contains (p.kind K) && feeds K p srcs) := by
  cases p with
  | bubble => simp [producerIn, Slot.kind, hb]
  | instr w => rfl

/-- The executeHazard cycles of the rule that fires (44_pipeline_engine R222 to R226). -/
theorem exCycles_hazardOf (K : Classifier) (f : Fetched) (dec exe : Slot) :
    (hazardOf K f dec exe).exCycles = exHazardCycles K f.kind f.srcRegs dec := by
  unfold hazardOf exHazardCycles
  rw [producerIn_eq _ _ _ _ (by decide), producerIn_eq _ _ _ _ (by decide)]
  by_cases hx : exe.kind K = .load ∧ feeds K exe f.srcRegs = true <;>
    cases hk : f.kind <;> cases hd : dec.kind K <;> cases feeds K dec f.srcRegs <;>
      simp [OpKind.isBranch, OpKind.isArithmetic, OpKind.isLoad, arithmeticKinds, Hazard.exCycles, hx]

/-- The decodeHazard cycles of the rule that fires (44_pipeline_engine R222 to R227). -/
theorem decCycles_hazardOf (K : Classifier) (p : Params) (f : Fetched) (dec exe : Slot) :
    (hazardOf K f dec exe).decCycles p = decHazardCycles K p.execLoadBranchStall f.kind f.srcRegs dec exe := by
  unfold hazardOf decHazardCycles
  rw [producerIn_eq _ _ _ _ (by decide), producerIn_eq _ _ _ _ (by decide), producerIn_eq _ _ _ _ (by decide)]
  by_cases hx : exe.kind K = .load ∧ feeds K exe f.srcRegs = true <;>
    cases hk : f.kind <;> cases hd : dec.kind K <;> cases feeds K dec f.srcRegs <;>
      simp [OpKind.isBranch, OpKind.isArithmetic, OpKind.isLoad, arithmeticKinds, Hazard.decCycles, hx]

/-- The stall counters after hazard detection (44_pipeline_engine R223 to R227, R230). -/
@[simp] theorem detectHazard_stall (K : Classifier) (f : Fetched) (s : State) :
    (detectHazard K f s).stall = { s.stall with
      exHaz := s.stall.exHaz + exHazardCycles K f.kind f.srcRegs s.slot.decode
      decHaz := s.stall.decHaz +
        decHazardCycles K s.params.execLoadBranchStall f.kind f.srcRegs s.slot.decode s.slot.execute } := by
  unfold detectHazard scheduleHazard
  rw [exCycles_hazardOf, decCycles_hazardOf]

/-- `drain` after the halt accounting (44_pipeline_engine R232). -/
@[simp] theorem drainOne_drain (s : State) : (drainOne s).drain = if s.halted then s.drain - 1 else s.drain := by
  unfold drainOne; split <;> rfl

/-- The status after the halt accounting (44_pipeline_engine R232). -/
@[simp] theorem drainOne_status (s : State) :
    (drainOne s).status = if s.halted = true ∧ s.drain - 1 = 0 then .halt else s.status := by
  unfold drainOne
  cases s.halted <;> by_cases h : s.drain - 1 = 0 <;> simp [h]

/-- The history entry a record's address becomes (44_pipeline_engine R219). -/
theorem pushedAddr_eq (k : OpKind) (a : Touched) : pushedAddr k a = if k = .load ∨ k = .store then a else .noAddr := by
  cases k <;> rfl

/-- No kind but the stall kinds is active without a counter (44_pipeline_engine R213). -/
theorem activeStall_none {c : StallState} : activeStall c = none ↔ c = ⟨0, 0, 0, 0⟩ := by
  unfold activeStall
  rcases c with ⟨a, b, d, e⟩
  by_cases ha : a = 0 <;> by_cases hb : b = 0 <;> by_cases hd : d = 0 <;> by_cases he : e = 0 <;> simp [ha, hb, hd, he]

end Sys2Proof.Machine
end

