-- ==== Sys2Proof/Laws/Encoding.lean ====
section
/-! SUPPORT. The fields of the three formats: what each accessor reads of an encoded word (30_encoding R81, R82), and
that a word is made of its fields again. -/

namespace Sys2Proof

@[simp] theorem opcode_encodeR (fn : BitVec 6) (a b c d : RegNum) : opcode (encodeR fn a b c d) = 0#6 := by
  ext i hi
  simp only [opcode, encodeR, BitVec.getElem_extractLsb', BitVec.getLsbD_append]
  interval_cases i <;> simp

@[simp] theorem rs_encodeR (fn : BitVec 6) (a b c d : RegNum) : rs (encodeR fn a b c d) = a := by
  ext i hi
  simp only [rs, encodeR, BitVec.getElem_extractLsb', BitVec.getLsbD_append]
  interval_cases i <;> simp

@[simp] theorem rt_encodeR (fn : BitVec 6) (a b c d : RegNum) : rt (encodeR fn a b c d) = b := by
  ext i hi
  simp only [rt, encodeR, BitVec.getElem_extractLsb', BitVec.getLsbD_append]
  interval_cases i <;> simp

@[simp] theorem rd_encodeR (fn : BitVec 6) (a b c d : RegNum) : rd (encodeR fn a b c d) = c := by
  ext i hi
  simp only [rd, encodeR, BitVec.getElem_extractLsb', BitVec.getLsbD_append]
  interval_cases i <;> simp

@[simp] theorem shamt_encodeR (fn : BitVec 6) (a b c d : RegNum) : shamt (encodeR fn a b c d) = d := by
  ext i hi
  simp only [shamt, encodeR, BitVec.getElem_extractLsb', BitVec.getLsbD_append]
  interval_cases i <;> simp

@[simp] theorem funct_encodeR (fn : BitVec 6) (a b c d : RegNum) : funct (encodeR fn a b c d) = fn := by
  ext i hi
  simp only [funct, encodeR, BitVec.getElem_extractLsb', BitVec.getLsbD_append]
  interval_cases i <;> simp

@[simp] theorem opcode_encodeI (op : BitVec 6) (a b : RegNum) (i : BitVec 16) : opcode (encodeI op a b i) = op := by
  ext j hj
  simp only [opcode, encodeI, BitVec.getElem_extractLsb', BitVec.getLsbD_append]
  interval_cases j <;> simp

@[simp] theorem rs_encodeI (op : BitVec 6) (a b : RegNum) (i : BitVec 16) : rs (encodeI op a b i) = a := by
  ext j hj
  simp only [rs, encodeI, BitVec.getElem_extractLsb', BitVec.getLsbD_append]
  interval_cases j <;> simp

@[simp] theorem rt_encodeI (op : BitVec 6) (a b : RegNum) (i : BitVec 16) : rt (encodeI op a b i) = b := by
  ext j hj
  simp only [rt, encodeI, BitVec.getElem_extractLsb', BitVec.getLsbD_append]
  interval_cases j <;> simp

@[simp] theorem imm_encodeI (op : BitVec 6) (a b : RegNum) (i : BitVec 16) : imm (encodeI op a b i) = i := by
  ext j hj
  simp only [imm, encodeI, BitVec.getElem_extractLsb', BitVec.getLsbD_append]
  interval_cases j <;> simp

@[simp] theorem opcode_encodeJ (op : BitVec 6) (t : BitVec 26) : opcode (encodeJ op t) = op := by
  ext j hj
  simp only [opcode, encodeJ, BitVec.getElem_extractLsb', BitVec.getLsbD_append]
  interval_cases j <;> simp

@[simp] theorem target_encodeJ (op : BitVec 6) (t : BitVec 26) : target (encodeJ op t) = t := by
  ext j hj
  simp only [target, encodeJ, BitVec.getElem_extractLsb', BitVec.getLsbD_append]
  interval_cases j <;> simp

theorem encodeR_fields (w : Word) (h : opcode w = 0#6) :
    encodeR (funct w) (rs w) (rt w) (rd w) (shamt w) = w := by
  have e : opcode w ++ rs w ++ rt w ++ rd w ++ shamt w ++ funct w = w := by
    ext j hj
    simp only [opcode, rs, rt, rd, shamt, funct, BitVec.getElem_append, BitVec.getElem_extractLsb']
    interval_cases j <;> simp [BitVec.getLsbD_eq_getElem]
  rw [h] at e
  exact e

theorem encodeI_fields (w : Word) : encodeI (opcode w) (rs w) (rt w) (imm w) = w := by
  unfold encodeI
  ext j hj
  simp only [opcode, rs, rt, imm, BitVec.getElem_append, BitVec.getElem_extractLsb']
  interval_cases j <;> simp [BitVec.getLsbD_eq_getElem]

theorem encodeJ_fields (w : Word) : encodeJ (opcode w) (target w) = w := by
  unfold encodeJ
  ext j hj
  simp only [opcode, target, BitVec.getElem_append, BitVec.getElem_extractLsb']
  interval_cases j <;> simp [BitVec.getLsbD_eq_getElem]

/-- The word of no listed opcode is the halt word, whose opcode 0x3F is unlisted (30_encoding R91). -/
theorem ne_haltWord_of_opcode {w : Word} (h : opcode w ≠ 0x3F#6) : w ≠ haltWord := by
  rintro rfl
  exact h (by decide)

/-- The bytes of a word give the word back (20_memory R63). -/
theorem wordOfBytes_extract (w : Word) :
    wordOfBytes (w.extractLsb' 24 8) (w.extractLsb' 16 8) (w.extractLsb' 8 8) (w.extractLsb' 0 8) = w := by
  unfold wordOfBytes
  ext j hj
  simp only [BitVec.getElem_append, BitVec.getElem_extractLsb']
  interval_cases j <;> simp [BitVec.getLsbD_eq_getElem]

/-- The decoder on the bytes of a word is the decoder on the word (20_memory R63, 30_encoding R80). -/
theorem decodeBytes_bytesOfWord (w : Word) :
    decodeBytes (bytesOfWord w) = (decode w).map fun i => (i, []) := by
  simp only [decodeBytes, bytesOfWord, wordOfBytes_extract]
  cases decode w <;> rfl

/-- Two words put together are equal when their parts are. -/
theorem append_inj {n m : Nat} {a c : BitVec n} {b d : BitVec m} : a ++ b = c ++ d ↔ a = c ∧ b = d := by
  constructor
  · intro h
    constructor
    · have := congrArg (BitVec.extractLsb' m n) h
      simpa [BitVec.extractLsb'_append_eq_left] using this
    · have := congrArg (BitVec.extractLsb' 0 m) h
      simpa [BitVec.extractLsb'_append_eq_right] using this
  · rintro ⟨rfl, rfl⟩; rfl

/-- A row of the opcode tests the opcode alone (30_encoding R92). -/
theorem and_opcodeMask (w : Word) (op : BitVec 6) : w &&& 0xFC000000#32 = op ++ 0#26 ↔ opcode w = op := by
  conv_lhs => rw [← encodeJ_fields w]
  unfold encodeJ
  rw [show (0xFC000000#32 : BitVec 32) = 0x3F#6 ++ 0#26 from rfl, BitVec.and_append, append_inj,
    show (0x3F#6) = BitVec.allOnes 6 from rfl, BitVec.and_allOnes]
  simp

/-- A row of the funct tests the opcode and the funct (30_encoding R92). -/
theorem and_functMask (w : Word) (fn : BitVec 6) :
    w &&& 0xFC00003F#32 = 0#26 ++ fn ↔ opcode w = 0#6 ∧ funct w = fn := by
  have h : w = opcode w ++ (w.extractLsb' 6 20 ++ funct w) := by
    apply BitVec.eq_of_getLsbD_eq
    intro i hi
    simp only [opcode, funct, BitVec.getLsbD_append, BitVec.getLsbD_extractLsb']
    split
    · split
      · simp; omega
      · simp [show 6 + (i - 6) = i by omega]; omega
    · simp [show 26 + (i - 26) = i by omega]; omega
  conv_lhs => rw [h]
  rw [show (0xFC00003F#32 : BitVec 32) = 0x3F#6 ++ (0#20 ++ 0x3F#6) from rfl, BitVec.and_append, BitVec.and_append,
    show (0#26 ++ fn) = 0#6 ++ (0#20 ++ fn) from BitVec.eq_of_toNat_eq (by rw [BitVec.toNat_append, BitVec.toNat_append, BitVec.toNat_append]; simp), append_inj, append_inj,
    show (0x3F#6) = BitVec.allOnes 6 from rfl, BitVec.and_allOnes, BitVec.and_allOnes]
  simp

end Sys2Proof
end

