-- ==== Sys2Proof/Laws/Memory.lean ====
section
/-! SUPPORT. The byte memory of the external store: a write keeps the canonical form, and a read after a write. -/

namespace Sys2Proof.Machine

/-- Every entry after a write is the written one or was there. -/
theorem mem_write {a : Nat} {v : Byte} {m : Memory} {c : Host.Cell} (h : c ∈ m.write a v) :
    (c = (a, v) ∧ v ≠ Memory.unlisted) ∨ c ∈ m := by
  induction m with
  | nil =>
    unfold Memory.write at h
    split at h
    · simp at h
    · left; exact ⟨by simpa using h, by assumption⟩
  | cons d m ih =>
    unfold Memory.write at h
    split at h
    · split at h
      · exact .inr h
      · rcases List.mem_cons.1 h with rfl | h
        · exact .inl ⟨rfl, by assumption⟩
        · exact .inr h
    · split at h
      · split at h
        · exact .inr (List.mem_cons_of_mem _ h)
        · rcases List.mem_cons.1 h with rfl | h
          · exact .inl ⟨rfl, by assumption⟩
          · exact .inr (List.mem_cons_of_mem _ h)
      · rcases List.mem_cons.1 h with rfl | h
        · exact .inr (by simp)
        · rcases ih h with h | h
          · exact .inl h
          · exact .inr (List.mem_cons_of_mem _ h)

/-- A write keeps the canonical form. -/
theorem wf_write {a : Nat} {v : Byte} {m : Memory} (h : m.wf) : (m.write a v).wf := by
  refine ⟨?_, fun c hc => ?_⟩
  · have hp := h.1
    clear h
    induction m with
    | nil => unfold Memory.write; split <;> simp
    | cons d m ih =>
      obtain ⟨h1, h2⟩ := List.pairwise_cons.1 hp
      unfold Memory.write
      split
      · split
        · exact hp
        · refine List.pairwise_cons.2 ⟨fun c hc => ?_, hp⟩
          rcases List.mem_cons.1 hc with rfl | hc
          · assumption
          · exact lt_trans (by assumption) (h1 c hc)
      · split
        · subst_vars
          split
          · exact h2
          · exact List.pairwise_cons.2 ⟨fun c hc => h1 c hc, h2⟩
        · refine List.pairwise_cons.2 ⟨fun c hc => ?_, ih h2⟩
          rcases mem_write hc with ⟨rfl, _⟩ | hc
          · dsimp only; omega
          · exact h1 c hc
  · rcases mem_write hc with ⟨rfl, hv⟩ | hc
    · exact hv
    · exact h.2 c hc

/-- Writing any number of bytes keeps the canonical form. -/
theorem wf_writeBytes {n : Nat} {a v : Nat} {m : Memory} (h : m.wf) : (m.writeBytes a n v).wf := by
  induction n generalizing m v with
  | zero => exact h
  | succ n ih => exact ih (wf_write h)

/-- An address below every listed one reads as unlisted. -/
theorem read_of_lt {a : Nat} {m : Memory} (h : ∀ c ∈ m, a < c.1) : m.read a = Memory.unlisted := by
  induction m with
  | nil => rfl
  | cons d m ih =>
    have := h d (by simp)
    unfold Memory.read
    rw [if_neg (by omega)]
    exact ih fun c hc => h c (by simp [hc])

/-- The byte at an address after a write: the written one there, the old one elsewhere. -/
theorem read_write {a b : Nat} {v : Byte} {m : Memory} (h : m.wf) :
    (m.write a v).read b = if b = a then v else m.read b := by
  have hp := h.1
  clear h
  induction m with
  | nil =>
    unfold Memory.write
    split <;> split <;> simp_all [Memory.read]
    omega
  | cons d m ih =>
    obtain ⟨h1, h2⟩ := List.pairwise_cons.1 hp
    unfold Memory.write
    split
    · split
      · split
        · subst_vars
          exact read_of_lt fun c hc => by
            rcases List.mem_cons.1 hc with rfl | hc
            · assumption
            · exact lt_trans (by assumption) (h1 c hc)
        · rfl
      · conv_lhs => unfold Memory.read
        split <;> split <;> simp_all
    · split
      · subst_vars
        split
        · split
          · subst_vars; exact read_of_lt h1
          · conv_rhs => unfold Memory.read
            rw [if_neg (by omega)]
        · conv_lhs => unfold Memory.read
          conv_rhs => unfold Memory.read
          split <;> split <;> simp_all
      · conv_lhs => unfold Memory.read
        rw [ih h2]
        conv_rhs => rhs; unfold Memory.read
        split <;> split <;> simp_all

end Sys2Proof.Machine
end

