-- ==== Sys2Proof/Laws/PerInstr.lean ====
section
/-! SUPPORT. The family `OwnRow`: the word of an instruction is selected by the row of 30_encoding R92 that carries
its mnemonic. One lemma per constructor of Instr. -/

namespace Sys2Proof.Laws

open Sys2Proof.Machine

/-- The instruction's word is selected by a row of R92 with its mnemonic and its kind. -/
def OwnRow.Statement (i : Instr) : Prop :=
  ∃ r ∈ tableRows, r.mnemonic = mnemonicOf i ∧ r.kind = i.kind ∧ r.selects (encode i) = true

/-- The R format under its mask: `opcode` and `funct` stay. -/
theorem encodeR_masked (fn : BitVec 6) (a b c d : RegNum) :
    encodeR fn a b c d &&& 0xFC00003F#32 = encodeR fn 0 0 0 0 := by
  apply BitVec.eq_of_getLsbD_eq
  intro j hj
  simp only [encodeR, BitVec.getLsbD_and, BitVec.getLsbD_append]
  interval_cases j <;> simp

/-- The I format under its mask: `opcode` stays. -/
theorem encodeI_masked (op : BitVec 6) (a b : RegNum) (i : BitVec 16) :
    encodeI op a b i &&& 0xFC000000#32 = encodeI op 0 0 0 := by
  apply BitVec.eq_of_getLsbD_eq
  intro j hj
  simp only [encodeI, BitVec.getLsbD_and, BitVec.getLsbD_append]
  interval_cases j <;> simp

/-- The J format under its mask: `opcode` stays. -/
theorem encodeJ_masked (op : BitVec 6) (t : BitVec 26) :
    encodeJ op t &&& 0xFC000000#32 = encodeJ op 0 := by
  apply BitVec.eq_of_getLsbD_eq
  intro j hj
  simp only [encodeJ, BitVec.getLsbD_and, BitVec.getLsbD_append]
  interval_cases j <;> simp

theorem OwnRow.halt : OwnRow.Statement .halt :=
  ⟨⟨"halt", 0xFEEDFEED#32, 0xFFFFFFFF#32, .halt⟩, by decide, rfl, rfl, by decide⟩

theorem OwnRow.sll (a : RegNum) (b : RegNum) (c : RegNum) (d : RegNum) : OwnRow.Statement (.sll a b c d) :=
  ⟨⟨"sll", 0x00000000#32, 0xFC00003F#32, .arithmeticOp⟩, by decide, rfl, rfl, by
    simp only [TableRow.selects, encode, encodeR_masked]; decide⟩

theorem OwnRow.srl (a : RegNum) (b : RegNum) (c : RegNum) (d : RegNum) : OwnRow.Statement (.srl a b c d) :=
  ⟨⟨"srl", 0x00000002#32, 0xFC00003F#32, .arithmeticOp⟩, by decide, rfl, rfl, by
    simp only [TableRow.selects, encode, encodeR_masked]; decide⟩

theorem OwnRow.jr (a : RegNum) (b : RegNum) (c : RegNum) (d : RegNum) : OwnRow.Statement (.jr a b c d) :=
  ⟨⟨"jr", 0x00000008#32, 0xFC00003F#32, .jumpRegister⟩, by decide, rfl, rfl, by
    simp only [TableRow.selects, encode, encodeR_masked]; decide⟩

theorem OwnRow.add (a : RegNum) (b : RegNum) (c : RegNum) (d : RegNum) : OwnRow.Statement (.add a b c d) :=
  ⟨⟨"add", 0x00000020#32, 0xFC00003F#32, .arithmeticOp⟩, by decide, rfl, rfl, by
    simp only [TableRow.selects, encode, encodeR_masked]; decide⟩

theorem OwnRow.addu (a : RegNum) (b : RegNum) (c : RegNum) (d : RegNum) : OwnRow.Statement (.addu a b c d) :=
  ⟨⟨"addu", 0x00000021#32, 0xFC00003F#32, .arithmeticOp⟩, by decide, rfl, rfl, by
    simp only [TableRow.selects, encode, encodeR_masked]; decide⟩

theorem OwnRow.sub (a : RegNum) (b : RegNum) (c : RegNum) (d : RegNum) : OwnRow.Statement (.sub a b c d) :=
  ⟨⟨"sub", 0x00000022#32, 0xFC00003F#32, .arithmeticOp⟩, by decide, rfl, rfl, by
    simp only [TableRow.selects, encode, encodeR_masked]; decide⟩

theorem OwnRow.subu (a : RegNum) (b : RegNum) (c : RegNum) (d : RegNum) : OwnRow.Statement (.subu a b c d) :=
  ⟨⟨"subu", 0x00000023#32, 0xFC00003F#32, .arithmeticOp⟩, by decide, rfl, rfl, by
    simp only [TableRow.selects, encode, encodeR_masked]; decide⟩

theorem OwnRow.and (a : RegNum) (b : RegNum) (c : RegNum) (d : RegNum) : OwnRow.Statement (.and a b c d) :=
  ⟨⟨"and", 0x00000024#32, 0xFC00003F#32, .arithmeticOp⟩, by decide, rfl, rfl, by
    simp only [TableRow.selects, encode, encodeR_masked]; decide⟩

theorem OwnRow.or (a : RegNum) (b : RegNum) (c : RegNum) (d : RegNum) : OwnRow.Statement (.or a b c d) :=
  ⟨⟨"or", 0x00000025#32, 0xFC00003F#32, .arithmeticOp⟩, by decide, rfl, rfl, by
    simp only [TableRow.selects, encode, encodeR_masked]; decide⟩

theorem OwnRow.nor (a : RegNum) (b : RegNum) (c : RegNum) (d : RegNum) : OwnRow.Statement (.nor a b c d) :=
  ⟨⟨"nor", 0x00000027#32, 0xFC00003F#32, .arithmeticOp⟩, by decide, rfl, rfl, by
    simp only [TableRow.selects, encode, encodeR_masked]; decide⟩

theorem OwnRow.slt (a : RegNum) (b : RegNum) (c : RegNum) (d : RegNum) : OwnRow.Statement (.slt a b c d) :=
  ⟨⟨"slt", 0x0000002A#32, 0xFC00003F#32, .arithmeticOp⟩, by decide, rfl, rfl, by
    simp only [TableRow.selects, encode, encodeR_masked]; decide⟩

theorem OwnRow.sltu (a : RegNum) (b : RegNum) (c : RegNum) (d : RegNum) : OwnRow.Statement (.sltu a b c d) :=
  ⟨⟨"sltu", 0x0000002B#32, 0xFC00003F#32, .arithmeticOp⟩, by decide, rfl, rfl, by
    simp only [TableRow.selects, encode, encodeR_masked]; decide⟩

theorem OwnRow.j (t : BitVec 26) : OwnRow.Statement (.j t) :=
  ⟨⟨"j", 0x08000000#32, 0xFC000000#32, .jump⟩, by decide, rfl, rfl, by
    simp only [TableRow.selects, encode, encodeJ_masked]; decide⟩

theorem OwnRow.jal (t : BitVec 26) : OwnRow.Statement (.jal t) :=
  ⟨⟨"jal", 0x0C000000#32, 0xFC000000#32, .jump⟩, by decide, rfl, rfl, by
    simp only [TableRow.selects, encode, encodeJ_masked]; decide⟩

theorem OwnRow.beq (a : RegNum) (b : RegNum) (n : BitVec 16) : OwnRow.Statement (.beq a b n) :=
  ⟨⟨"beq", 0x10000000#32, 0xFC000000#32, .branch⟩, by decide, rfl, rfl, by
    simp only [TableRow.selects, encode, encodeI_masked]; decide⟩

theorem OwnRow.bne (a : RegNum) (b : RegNum) (n : BitVec 16) : OwnRow.Statement (.bne a b n) :=
  ⟨⟨"bne", 0x14000000#32, 0xFC000000#32, .branch⟩, by decide, rfl, rfl, by
    simp only [TableRow.selects, encode, encodeI_masked]; decide⟩

theorem OwnRow.blez (a : RegNum) (b : RegNum) (n : BitVec 16) : OwnRow.Statement (.blez a b n) :=
  ⟨⟨"blez", 0x18000000#32, 0xFC000000#32, .branch⟩, by decide, rfl, rfl, by
    simp only [TableRow.selects, encode, encodeI_masked]; decide⟩

theorem OwnRow.bgtz (a : RegNum) (b : RegNum) (n : BitVec 16) : OwnRow.Statement (.bgtz a b n) :=
  ⟨⟨"bgtz", 0x1C000000#32, 0xFC000000#32, .branch⟩, by decide, rfl, rfl, by
    simp only [TableRow.selects, encode, encodeI_masked]; decide⟩

theorem OwnRow.addi (a : RegNum) (b : RegNum) (n : BitVec 16) : OwnRow.Statement (.addi a b n) :=
  ⟨⟨"addi", 0x20000000#32, 0xFC000000#32, .arithmeticImmediateOp⟩, by decide, rfl, rfl, by
    simp only [TableRow.selects, encode, encodeI_masked]; decide⟩

theorem OwnRow.addiu (a : RegNum) (b : RegNum) (n : BitVec 16) : OwnRow.Statement (.addiu a b n) :=
  ⟨⟨"addiu", 0x24000000#32, 0xFC000000#32, .arithmeticImmediateOp⟩, by decide, rfl, rfl, by
    simp only [TableRow.selects, encode, encodeI_masked]; decide⟩

theorem OwnRow.slti (a : RegNum) (b : RegNum) (n : BitVec 16) : OwnRow.Statement (.slti a b n) :=
  ⟨⟨"slti", 0x28000000#32, 0xFC000000#32, .arithmeticImmediateOp⟩, by decide, rfl, rfl, by
    simp only [TableRow.selects, encode, encodeI_masked]; decide⟩

theorem OwnRow.sltiu (a : RegNum) (b : RegNum) (n : BitVec 16) : OwnRow.Statement (.sltiu a b n) :=
  ⟨⟨"sltiu", 0x2C000000#32, 0xFC000000#32, .arithmeticImmediateOp⟩, by decide, rfl, rfl, by
    simp only [TableRow.selects, encode, encodeI_masked]; decide⟩

theorem OwnRow.andi (a : RegNum) (b : RegNum) (n : BitVec 16) : OwnRow.Statement (.andi a b n) :=
  ⟨⟨"andi", 0x30000000#32, 0xFC000000#32, .arithmeticImmediateOp⟩, by decide, rfl, rfl, by
    simp only [TableRow.selects, encode, encodeI_masked]; decide⟩

theorem OwnRow.ori (a : RegNum) (b : RegNum) (n : BitVec 16) : OwnRow.Statement (.ori a b n) :=
  ⟨⟨"ori", 0x34000000#32, 0xFC000000#32, .arithmeticImmediateOp⟩, by decide, rfl, rfl, by
    simp only [TableRow.selects, encode, encodeI_masked]; decide⟩

theorem OwnRow.lui (a : RegNum) (b : RegNum) (n : BitVec 16) : OwnRow.Statement (.lui a b n) :=
  ⟨⟨"lui", 0x3C000000#32, 0xFC000000#32, .arithmeticImmediateOp⟩, by decide, rfl, rfl, by
    simp only [TableRow.selects, encode, encodeI_masked]; decide⟩

theorem OwnRow.lw (a : RegNum) (b : RegNum) (n : BitVec 16) : OwnRow.Statement (.lw a b n) :=
  ⟨⟨"lw", 0x8C000000#32, 0xFC000000#32, .load⟩, by decide, rfl, rfl, by
    simp only [TableRow.selects, encode, encodeI_masked]; decide⟩

theorem OwnRow.lbu (a : RegNum) (b : RegNum) (n : BitVec 16) : OwnRow.Statement (.lbu a b n) :=
  ⟨⟨"lbu", 0x90000000#32, 0xFC000000#32, .load⟩, by decide, rfl, rfl, by
    simp only [TableRow.selects, encode, encodeI_masked]; decide⟩

theorem OwnRow.lhu (a : RegNum) (b : RegNum) (n : BitVec 16) : OwnRow.Statement (.lhu a b n) :=
  ⟨⟨"lhu", 0x94000000#32, 0xFC000000#32, .load⟩, by decide, rfl, rfl, by
    simp only [TableRow.selects, encode, encodeI_masked]; decide⟩

theorem OwnRow.sb (a : RegNum) (b : RegNum) (n : BitVec 16) : OwnRow.Statement (.sb a b n) :=
  ⟨⟨"sb", 0xA0000000#32, 0xFC000000#32, .store⟩, by decide, rfl, rfl, by
    simp only [TableRow.selects, encode, encodeI_masked]; decide⟩

theorem OwnRow.sh (a : RegNum) (b : RegNum) (n : BitVec 16) : OwnRow.Statement (.sh a b n) :=
  ⟨⟨"sh", 0xA4000000#32, 0xFC000000#32, .store⟩, by decide, rfl, rfl, by
    simp only [TableRow.selects, encode, encodeI_masked]; decide⟩

theorem OwnRow.sw (a : RegNum) (b : RegNum) (n : BitVec 16) : OwnRow.Statement (.sw a b n) :=
  ⟨⟨"sw", 0xAC000000#32, 0xFC000000#32, .store⟩, by decide, rfl, rfl, by
    simp only [TableRow.selects, encode, encodeI_masked]; decide⟩

end Sys2Proof.Laws
end

