-- ==== Sys2Proof/Laws/Step.lean ====
section
/-! SUPPORT. What a step can do, said once: the inversion of `step`, and every instruction's meaning as the one shared
operation `fetchAs` on its word, its kind and its sources. -/

namespace Sys2Proof.Machine

/-- The hazard sources of an instruction (30_encoding R89), as its meaning passes them on. -/
def sourcesOf : Instr → List RegNum
  | .halt => []
  | .sll rs rt _ _ | .srl rs rt _ _ | .add rs rt _ _ | .addu rs rt _ _ | .sub rs rt _ _ | .subu rs rt _ _ => [rs, rt]
  | .and rs rt _ _ | .or rs rt _ _ | .nor rs rt _ _ | .slt rs rt _ _ | .sltu rs rt _ _ => [rs, rt]
  | .jr _ _ _ _ => []
  | .j _ | .jal _ => []
  | .beq rs rt _ | .bne rs rt _ | .blez rs rt _ | .bgtz rs rt _ => [rs, rt]
  | .addi rs _ _ | .addiu rs _ _ | .slti rs _ _ | .sltiu rs _ _ | .andi rs _ _ | .ori rs _ _ | .lui rs _ _ => [rs]
  | .lw _ _ _ | .lbu _ _ _ | .lhu _ _ _ | .sb _ _ _ | .sh _ _ _ | .sw _ _ _ => []

/-- Every meaning is the shared fetching cycle on the instruction's own word, kind and sources. -/
theorem exec_eq_fetchAs (i : Instr) (s : State) :
    exec i s = fetchAs Classifier.mips ⟨encode i, i.kind, sourcesOf i⟩ s := by
  cases i <;> rfl

/-- The fetching cycle: the record's cycle, or the abort. -/
theorem fetchAs_cases (K : Classifier) (f : Fetched) (s : State) :
    (∃ r, s.nextResponse = .record r ∧ fetchAs K f s = .next (fetchCycle K f r s)) ∨
    (s.nextResponse = .outOfRange ∧ fetchAs K f s = .next (abortCycle s)) := by
  unfold fetchAs
  cases s.nextResponse with
  | record r => exact .inl ⟨r, rfl, rfl⟩
  | outOfRange => exact .inr ⟨rfl, rfl⟩

/-- What a step can do: nothing after the end of the run, else the cycle of its shape. -/
theorem step_cases (s : State) :
    (s.status ≠ .running ∧ step s = .next s) ∨
    (s.status = .running ∧ shapeOf s = .flush ∧ step s = .next (flushCycle Classifier.mips s)) ∨
    (∃ c, s.status = .running ∧ shapeOf s = .stall c ∧ step s = .next (stallCycle Classifier.mips c s)) ∨
    (s.status = .running ∧ shapeOf s = .drain ∧ step s = .next (drainCycle Classifier.mips s)) ∨
    (s.status = .running ∧ shapeOf s = .fetch ∧ step s = stepFetch s) := by
  unfold step
  cases s.status with
  | halt => exact .inl ⟨by simp, rfl⟩
  | error => exact .inl ⟨by simp, rfl⟩
  | running =>
    cases h : shapeOf s with
    | flush => exact .inr (.inl ⟨rfl, rfl, rfl⟩)
    | stall c => exact .inr (.inr (.inl ⟨c, rfl, rfl, rfl⟩))
    | drain => exact .inr (.inr (.inr (.inl ⟨rfl, rfl, rfl⟩)))
    | fetch => exact .inr (.inr (.inr (.inr ⟨rfl, rfl, rfl⟩)))

/-- What the fetching step can do: the abort, the decoded instruction's meaning, or the Illegal word's. -/
theorem stepFetch_cases (s : State) :
    (s.nextResponse = .outOfRange ∧ stepFetch s = .next (abortCycle s)) ∨
    (∃ r i, s.nextResponse = .record r ∧ decode r.word = .ok i ∧ stepFetch s = exec i s) ∨
    (∃ r e, s.nextResponse = .record r ∧ decode r.word = .error e ∧ stepFetch s = execIllegal r.word s) := by
  unfold stepFetch
  cases hr : s.nextResponse with
  | outOfRange => exact .inl ⟨rfl, rfl⟩
  | record r =>
    cases hd : decode r.word with
    | ok i => exact .inr (.inl ⟨r, i, rfl, hd, by simp [hd]⟩)
    | error e => exact .inr (.inr ⟨r, e, rfl, hd, by simp [hd]⟩)

/-- The shape is the flush exactly when the flush counter is not zero (44_pipeline_engine R210). -/
theorem shapeOf_flush {s : State} : shapeOf s = .flush ↔ s.flush ≠ 0 := by
  unfold shapeOf
  split
  · simp [*]
  · split
    · simp_all
    · split <;> simp_all

/-- The shape is normal exactly when all five counters are zero (44_pipeline_engine R210, R236(a)). -/
theorem shapeOf_normal {s : State} :
    shapeOf s = (if s.halted then Shape.drain else Shape.fetch) ↔ s.flush = 0 ∧ s.stall = ⟨0, 0, 0, 0⟩ := by
  unfold shapeOf activeStall
  rcases s.stall with ⟨a, b, c, d⟩
  by_cases hf : s.flush = 0 <;> by_cases ha : a = 0 <;> by_cases hb : b = 0 <;> by_cases hc : c = 0 <;>
    by_cases hd : d = 0 <;> cases s.halted <;> simp [hf, ha, hb, hc, hd]

end Sys2Proof.Machine
end

