-- ==== Sys2Proof/Tests/Slice0.lean ====
section
/-! SUPPORT. The model's own tests: every constructor's word as the spec's examples write it (40_arithmetic, 41_load_store,
42_control_halt), the checks of WellFormed with an ill-formed term each, single steps on small states, single cache
lookups of 95_test_vectors, and for every obligation with hypotheses a witness that meets them. Expected values are the
spec's or derived by hand from its rules. -/

namespace Sys2Proof.Tests

open Sys2Proof Sys2Proof.Machine

/-! ### Decoding: the example word of each instruction (its row's "Example" line), its kind and its registers -/

theorem test_word_sll : decode 0x00095080#32 = .ok (.sll 0#5 9#5 10#5 2#5) ∧ encode (.sll 0#5 9#5 10#5 2#5) = 0x00095080#32 ∧
    classifyWord 0x00095080#32 = .arithmeticOp ∧ destRegWord 0x00095080#32 = some 10#5 ∧ srcRegsWord 0x00095080#32 = [0#5, 9#5] := by decide
theorem test_word_srl : decode 0x00095102#32 = .ok (.srl 0#5 9#5 10#5 4#5) ∧ encode (.srl 0#5 9#5 10#5 4#5) = 0x00095102#32 ∧
    classifyWord 0x00095102#32 = .arithmeticOp ∧ destRegWord 0x00095102#32 = some 10#5 ∧ srcRegsWord 0x00095102#32 = [0#5, 9#5] := by decide
theorem test_word_jr : decode 0x03E00008#32 = .ok (.jr 31#5 0#5 0#5 0#5) ∧ encode (.jr 31#5 0#5 0#5 0#5) = 0x03E00008#32 ∧
    classifyWord 0x03E00008#32 = .jumpRegister ∧ destRegWord 0x03E00008#32 = none ∧ srcRegsWord 0x03E00008#32 = [] := by decide
theorem test_word_add : decode 0x01095020#32 = .ok (.add 8#5 9#5 10#5 0#5) ∧ encode (.add 8#5 9#5 10#5 0#5) = 0x01095020#32 ∧
    classifyWord 0x01095020#32 = .arithmeticOp ∧ destRegWord 0x01095020#32 = some 10#5 ∧ srcRegsWord 0x01095020#32 = [8#5, 9#5] := by decide
theorem test_word_addu : decode 0x01095021#32 = .ok (.addu 8#5 9#5 10#5 0#5) ∧ encode (.addu 8#5 9#5 10#5 0#5) = 0x01095021#32 ∧
    classifyWord 0x01095021#32 = .arithmeticOp ∧ destRegWord 0x01095021#32 = some 10#5 ∧ srcRegsWord 0x01095021#32 = [8#5, 9#5] := by decide
theorem test_word_sub : decode 0x01095022#32 = .ok (.sub 8#5 9#5 10#5 0#5) ∧ encode (.sub 8#5 9#5 10#5 0#5) = 0x01095022#32 ∧
    classifyWord 0x01095022#32 = .arithmeticOp ∧ destRegWord 0x01095022#32 = some 10#5 ∧ srcRegsWord 0x01095022#32 = [8#5, 9#5] := by decide
theorem test_word_subu : decode 0x01095023#32 = .ok (.subu 8#5 9#5 10#5 0#5) ∧ encode (.subu 8#5 9#5 10#5 0#5) = 0x01095023#32 ∧
    classifyWord 0x01095023#32 = .arithmeticOp ∧ destRegWord 0x01095023#32 = some 10#5 ∧ srcRegsWord 0x01095023#32 = [8#5, 9#5] := by decide
theorem test_word_and : decode 0x01095024#32 = .ok (.and 8#5 9#5 10#5 0#5) ∧ encode (.and 8#5 9#5 10#5 0#5) = 0x01095024#32 ∧
    classifyWord 0x01095024#32 = .arithmeticOp ∧ destRegWord 0x01095024#32 = some 10#5 ∧ srcRegsWord 0x01095024#32 = [8#5, 9#5] := by decide
theorem test_word_or : decode 0x01095025#32 = .ok (.or 8#5 9#5 10#5 0#5) ∧ encode (.or 8#5 9#5 10#5 0#5) = 0x01095025#32 ∧
    classifyWord 0x01095025#32 = .arithmeticOp ∧ destRegWord 0x01095025#32 = some 10#5 ∧ srcRegsWord 0x01095025#32 = [8#5, 9#5] := by decide
theorem test_word_nor : decode 0x01095027#32 = .ok (.nor 8#5 9#5 10#5 0#5) ∧ encode (.nor 8#5 9#5 10#5 0#5) = 0x01095027#32 ∧
    classifyWord 0x01095027#32 = .arithmeticOp ∧ destRegWord 0x01095027#32 = some 10#5 ∧ srcRegsWord 0x01095027#32 = [8#5, 9#5] := by decide
theorem test_word_slt : decode 0x0109502A#32 = .ok (.slt 8#5 9#5 10#5 0#5) ∧ encode (.slt 8#5 9#5 10#5 0#5) = 0x0109502A#32 ∧
    classifyWord 0x0109502A#32 = .arithmeticOp ∧ destRegWord 0x0109502A#32 = some 10#5 ∧ srcRegsWord 0x0109502A#32 = [8#5, 9#5] := by decide
theorem test_word_sltu : decode 0x0109502B#32 = .ok (.sltu 8#5 9#5 10#5 0#5) ∧ encode (.sltu 8#5 9#5 10#5 0#5) = 0x0109502B#32 ∧
    classifyWord 0x0109502B#32 = .arithmeticOp ∧ destRegWord 0x0109502B#32 = some 10#5 ∧ srcRegsWord 0x0109502B#32 = [8#5, 9#5] := by decide
theorem test_word_j : decode 0x08000010#32 = .ok (.j 0x0000010#26) ∧ encode (.j 0x0000010#26) = 0x08000010#32 ∧
    classifyWord 0x08000010#32 = .jump ∧ destRegWord 0x08000010#32 = none ∧ srcRegsWord 0x08000010#32 = [] := by decide
theorem test_word_jal : decode 0x0C000010#32 = .ok (.jal 0x0000010#26) ∧ encode (.jal 0x0000010#26) = 0x0C000010#32 ∧
    classifyWord 0x0C000010#32 = .jump ∧ destRegWord 0x0C000010#32 = none ∧ srcRegsWord 0x0C000010#32 = [] := by decide
theorem test_word_beq : decode 0x11090003#32 = .ok (.beq 8#5 9#5 0x0003#16) ∧ encode (.beq 8#5 9#5 0x0003#16) = 0x11090003#32 ∧
    classifyWord 0x11090003#32 = .branch ∧ destRegWord 0x11090003#32 = none ∧ srcRegsWord 0x11090003#32 = [8#5, 9#5] := by decide
theorem test_word_bne : decode 0x1509FFFE#32 = .ok (.bne 8#5 9#5 0xFFFE#16) ∧ encode (.bne 8#5 9#5 0xFFFE#16) = 0x1509FFFE#32 ∧
    classifyWord 0x1509FFFE#32 = .branch ∧ destRegWord 0x1509FFFE#32 = none ∧ srcRegsWord 0x1509FFFE#32 = [8#5, 9#5] := by decide
theorem test_word_blez : decode 0x19000003#32 = .ok (.blez 8#5 0#5 0x0003#16) ∧ encode (.blez 8#5 0#5 0x0003#16) = 0x19000003#32 ∧
    classifyWord 0x19000003#32 = .branch ∧ destRegWord 0x19000003#32 = none ∧ srcRegsWord 0x19000003#32 = [8#5, 0#5] := by decide
theorem test_word_bgtz : decode 0x1D000003#32 = .ok (.bgtz 8#5 0#5 0x0003#16) ∧ encode (.bgtz 8#5 0#5 0x0003#16) = 0x1D000003#32 ∧
    classifyWord 0x1D000003#32 = .branch ∧ destRegWord 0x1D000003#32 = none ∧ srcRegsWord 0x1D000003#32 = [8#5, 0#5] := by decide
theorem test_word_addi : decode 0x2109FFFC#32 = .ok (.addi 8#5 9#5 0xFFFC#16) ∧ encode (.addi 8#5 9#5 0xFFFC#16) = 0x2109FFFC#32 ∧
    classifyWord 0x2109FFFC#32 = .arithmeticImmediateOp ∧ destRegWord 0x2109FFFC#32 = some 9#5 ∧ srcRegsWord 0x2109FFFC#32 = [8#5] := by decide
theorem test_word_addiu : decode 0x2509FFFC#32 = .ok (.addiu 8#5 9#5 0xFFFC#16) ∧ encode (.addiu 8#5 9#5 0xFFFC#16) = 0x2509FFFC#32 ∧
    classifyWord 0x2509FFFC#32 = .arithmeticImmediateOp ∧ destRegWord 0x2509FFFC#32 = some 9#5 ∧ srcRegsWord 0x2509FFFC#32 = [8#5] := by decide
theorem test_word_slti : decode 0x29090005#32 = .ok (.slti 8#5 9#5 0x0005#16) ∧ encode (.slti 8#5 9#5 0x0005#16) = 0x29090005#32 ∧
    classifyWord 0x29090005#32 = .arithmeticImmediateOp ∧ destRegWord 0x29090005#32 = some 9#5 ∧ srcRegsWord 0x29090005#32 = [8#5] := by decide
theorem test_word_sltiu : decode 0x2D090005#32 = .ok (.sltiu 8#5 9#5 0x0005#16) ∧ encode (.sltiu 8#5 9#5 0x0005#16) = 0x2D090005#32 ∧
    classifyWord 0x2D090005#32 = .arithmeticImmediateOp ∧ destRegWord 0x2D090005#32 = some 9#5 ∧ srcRegsWord 0x2D090005#32 = [8#5] := by decide
theorem test_word_andi : decode 0x310900FF#32 = .ok (.andi 8#5 9#5 0x00FF#16) ∧ encode (.andi 8#5 9#5 0x00FF#16) = 0x310900FF#32 ∧
    classifyWord 0x310900FF#32 = .arithmeticImmediateOp ∧ destRegWord 0x310900FF#32 = some 9#5 ∧ srcRegsWord 0x310900FF#32 = [8#5] := by decide
theorem test_word_ori : decode 0x350900FF#32 = .ok (.ori 8#5 9#5 0x00FF#16) ∧ encode (.ori 8#5 9#5 0x00FF#16) = 0x350900FF#32 ∧
    classifyWord 0x350900FF#32 = .arithmeticImmediateOp ∧ destRegWord 0x350900FF#32 = some 9#5 ∧ srcRegsWord 0x350900FF#32 = [8#5] := by decide
theorem test_word_lui : decode 0x3C091234#32 = .ok (.lui 0#5 9#5 0x1234#16) ∧ encode (.lui 0#5 9#5 0x1234#16) = 0x3C091234#32 ∧
    classifyWord 0x3C091234#32 = .arithmeticImmediateOp ∧ destRegWord 0x3C091234#32 = some 9#5 ∧ srcRegsWord 0x3C091234#32 = [0#5] := by decide
theorem test_word_lw : decode 0x8D280008#32 = .ok (.lw 9#5 8#5 0x0008#16) ∧ encode (.lw 9#5 8#5 0x0008#16) = 0x8D280008#32 ∧
    classifyWord 0x8D280008#32 = .load ∧ destRegWord 0x8D280008#32 = some 8#5 ∧ srcRegsWord 0x8D280008#32 = [] := by decide
theorem test_word_lbu : decode 0x91280003#32 = .ok (.lbu 9#5 8#5 0x0003#16) ∧ encode (.lbu 9#5 8#5 0x0003#16) = 0x91280003#32 ∧
    classifyWord 0x91280003#32 = .load ∧ destRegWord 0x91280003#32 = some 8#5 ∧ srcRegsWord 0x91280003#32 = [] := by decide
theorem test_word_lhu : decode 0x95280002#32 = .ok (.lhu 9#5 8#5 0x0002#16) ∧ encode (.lhu 9#5 8#5 0x0002#16) = 0x95280002#32 ∧
    classifyWord 0x95280002#32 = .load ∧ destRegWord 0x95280002#32 = some 8#5 ∧ srcRegsWord 0x95280002#32 = [] := by decide
theorem test_word_sb : decode 0xA1280003#32 = .ok (.sb 9#5 8#5 0x0003#16) ∧ encode (.sb 9#5 8#5 0x0003#16) = 0xA1280003#32 ∧
    classifyWord 0xA1280003#32 = .store ∧ destRegWord 0xA1280003#32 = none ∧ srcRegsWord 0xA1280003#32 = [] := by decide
theorem test_word_sh : decode 0xA5280002#32 = .ok (.sh 9#5 8#5 0x0002#16) ∧ encode (.sh 9#5 8#5 0x0002#16) = 0xA5280002#32 ∧
    classifyWord 0xA5280002#32 = .store ∧ destRegWord 0xA5280002#32 = none ∧ srcRegsWord 0xA5280002#32 = [] := by decide
theorem test_word_sw : decode 0xAD280008#32 = .ok (.sw 9#5 8#5 0x0008#16) ∧ encode (.sw 9#5 8#5 0x0008#16) = 0xAD280008#32 ∧
    classifyWord 0xAD280008#32 = .store ∧ destRegWord 0xAD280008#32 = none ∧ srcRegsWord 0xAD280008#32 = [] := by decide
/-- 42_control_halt R167. -/
theorem test_word_halt : decode 0xFEEDFEED#32 = .ok .halt ∧ encode .halt = 0xFEEDFEED#32 ∧
    classifyWord 0xFEEDFEED#32 = .halt ∧ destRegWord 0xFEEDFEED#32 = none ∧ srcRegsWord 0xFEEDFEED#32 = [] := by decide
/-- 42_control_halt R168: the corner cases; 0x00000000 is no Illegal word (30_encoding R86). -/
theorem test_word_illegal : decode 0xFC000000#32 = .error (.illegalOpcode 0x3F#6) ∧
    decode 0xFFFFFFFF#32 = .error (.illegalOpcode 0x3F#6) ∧ decode 0x0000000C#32 = .error (.illegalFunct 0x0C#6) ∧
    classifyWord 0xFC000000#32 = .illegal ∧ classifyWord 0x00000000#32 = .arithmeticOp := by decide
/-- 30_encoding R80, R96: one word is four bytes, most significant first (20_memory R63). -/
theorem test_decode_bytes : decodeBytes [0x01, 0x09, 0x50, 0x20, 0xAA] = .ok (.add 8#5 9#5 10#5 0#5, [0xAA]) ∧
    decodeBytes [0x01, 0x09, 0x50] = .error .truncated := by decide
theorem test_decode_table_word : decodeTableWord 32 0x8D280008 = some (.lw 9#5 8#5 8#16) ∧
    decodeTableWord 32 0xFC000000 = none := by decide

/-! ### WellFormed: an ill-formed term for each check -/

/-- A configuration of 95_test_vectors CV6, with a miss latency. -/
def config (total block ways : Nat) : CacheConfig := ⟨total, block, ways, 1⟩

/-- 95_test_vectors CV6: the valid rows. -/
theorem test_config_valid : (Setup.mk (config 48 4 3) (config 64 16 4) {}).wellFormed = true ∧
    (Setup.mk (config 1 1 1) (config 1024 64 16) {}).wellFormed = true := by decide
/-- 43_cache_model R181: no way, so no set. -/
theorem test_config_no_way : (Setup.mk (config 64 16 0) (config 64 16 1) {}).wellFormed = false := by decide
/-- 43_cache_model R181: the block size is not a power of two. -/
theorem test_config_block_size : (Setup.mk (config 64 16 1) (config 12 3 1) {}).wellFormed = false := by decide
/-- 95_test_vectors CV6: the set count is 0, and 3. -/
theorem test_config_set_count : (Setup.mk (config 4 8 1) (config 64 16 1) {}).wellFormed = false ∧
    (Setup.mk (config 48 16 1) (config 64 16 1) {}).wellFormed = false := by decide
/-- 30_encoding R99: a load marked invalid. -/
theorem test_record_valid : (Record.mk 0 0x8D280008#32 (.addr 0x108) false false false).validOk Classifier.mips = false := by
  decide
/-- 30_encoding R99: an add marked as halt. -/
theorem test_record_halt : (Record.mk 0 0x01095020#32 .noAddr true false true).haltOk Classifier.mips = false := by decide
/-- 30_encoding R99: an overflow on a load. -/
theorem test_record_overflow : (Record.mk 0 0x8D280008#32 (.addr 0x108) true true false).overflowOk Classifier.mips = false := by
  decide
/-- 30_encoding R99: a store without an address. -/
theorem test_record_addr : (Record.mk 0 0xAD280008#32 .noAddr true false false).addrOk Classifier.mips = false := by decide
theorem test_record_well_formed : (Record.mk 4 0xAD280008#32 (.addr 0x108) true false false).wellFormed Classifier.mips = true ∧
    (recordFor 0xFEEDFEED#32).wellFormed Classifier.mips = true := by decide

/-! ### Caches and the memory store -/

/-- 95_test_vectors S1: the second access of the block hits. -/
theorem test_cache_scenario_a : ((freshCache ⟨8, 8, 1, 5⟩).access 0 false).1 = false ∧
    (((freshCache ⟨8, 8, 1, 5⟩).access 0 false).2.access 4 false).1 = true := by decide
/-- 95_test_vectors S2, access 4: a miss in a full set. -/
theorem test_cache_evict : accessSet 3 3 [⟨0, true, 3⟩, ⟨1, true, 2⟩, ⟨2, true, 1⟩] =
    (false, [⟨3, true, 1⟩, ⟨1, true, 3⟩, ⟨2, true, 2⟩]) := by decide
/-- 43_cache_model R185: a hit at rank 2 ages rank 1 only. -/
theorem test_cache_hit : accessSet 3 1 [⟨0, true, 3⟩, ⟨1, true, 2⟩, ⟨2, true, 1⟩] =
    (true, [⟨0, true, 3⟩, ⟨1, true, 1⟩, ⟨2, true, 2⟩]) := by decide
/-- 20_memory R63, its example. -/
theorem test_memory_big_endian :
    (MemoryStore.mk 0x100 4 []).setValue 0x100 .word 0x8C080000#32 =
      .ok ⟨0x100, 4, [(0x100, 0x8C#8), (0x101, 0x08#8)]⟩ ∧
    (MemoryStore.mk 0x100 4 [(0x100, 0x8C#8), (0x101, 0x08#8)]).getValue 0x102 .half = .ok 0x0000#32 ∧
    (MemoryStore.mk 0x100 4 [(0x100, 0x8C#8), (0x101, 0x08#8)]).getValue 0x101 .byte = .ok 0x08#32 := by decide

/-! ### Single steps -/

/-- The state an outcome continues in. -/
def nextOf (o : Host.Outcome State Fault Refusal) : Option State :=
  match o with
  | .next t => some t
  | .fault _ => none
  | .refused _ => none

/-- Reset with default caches, and one response waiting. -/
def fed (r : Record) : State := { State.reset with input := [.record r] }

/-- `fed` behind the given slots Fetch and Decode. -/
def behind (f d : Slot) (r : Record) : State :=
  { State.reset with slot := ⟨f, d, .bubble, .bubble, .bubble⟩, input := [.record r] }

/-- The first instruction after reset: counted, looked up, in Fetch (44_pipeline_engine R216, R228, R233). -/
theorem test_first_step_add :
    (nextOf (step (State.reset.withFetchWord 32 0x01095020))).map
      (fun t => (t.slot.fetch, t.cycle, t.stats.dynInstr, t.icache.misses)) =
    some (.instr 0x01095020#32, 1, 1, 1) := by decide
/-- The touched address of a load enters the history with it (44_pipeline_engine R219). -/
theorem test_load_pushes_address :
    (nextOf (step (fed ⟨0, 0x8D280008#32, .addr 0x108, true, false, false⟩))).map (fun t => t.hist.fetch) =
    some (.addr 0x108) := by decide
/-- 95_test_vectors H1, cycle 2: load-op. -/
theorem test_load_op :
    (nextOf (step (behind (.instr 0x8C810000#32) .bubble (recordFor 0x00211020#32)))).map (fun t => t.stall) =
    some ⟨0, 0, 0, 1⟩ := by decide
/-- 95_test_vectors H2: load-branch. -/
theorem test_load_branch :
    (nextOf (step (behind (.instr 0x8C810000#32) .bubble (recordFor 0x10210001#32)))).map (fun t => t.stall) =
    some ⟨0, 0, 2, 0⟩ := by decide
/-- 95_test_vectors H3: op-branch. -/
theorem test_op_branch :
    (nextOf (step (behind (.instr 0x00430820#32) .bubble (recordFor 0x10210001#32)))).map (fun t => t.stall) =
    some ⟨0, 0, 0, 1⟩ := by decide
/-- 95_test_vectors H6, H4, H11: overwriting, storing and jumping through a loaded register stall nothing. -/
theorem test_no_hazard :
    (nextOf (step (behind (.instr 0x8C880000#32) .bubble (recordFor 0x21280001#32)))).map (fun t => t.stall) =
      some ⟨0, 0, 0, 0⟩ ∧
    (nextOf (step (behind (.instr 0x8C810000#32) .bubble (recordFor 0xAC410000#32)))).map (fun t => t.stall) =
      some ⟨0, 0, 0, 0⟩ ∧
    (nextOf (step (behind (.instr 0x8C9F0000#32) .bubble (recordFor 0x03E00008#32)))).map (fun t => t.stall) =
      some ⟨0, 0, 0, 0⟩ := by decide
/-- 95_test_vectors H12: distance two is no hazard by default (44_pipeline_engine R227). -/
theorem test_distance_two :
    (nextOf (step (behind (.instr 0x00000000#32) (.instr 0x8C880000#32) (recordFor 0x11080001#32)))).map
      (fun t => t.stall) = some ⟨0, 0, 0, 0⟩ := by decide
/-- 44_pipeline_engine R220: the halt latches four drain cycles. -/
theorem test_halt_latches :
    (nextOf (step (fed (recordFor 0xFEEDFEED#32)))).map (fun t => (t.halted, t.drain, t.status, t.flush)) =
    some (true, 4, .running, 0) := by decide
/-- 60_exceptions R281, R282: the flush lengths 2 and 3. -/
theorem test_flush_lengths :
    (nextOf (step (fed (recordFor 0xFC000000#32)))).map (fun t => t.flush) = some 2 ∧
    (nextOf (step (fed ⟨0, 0x01095020#32, .noAddr, true, true, false⟩))).map (fun t => t.flush) = some 3 := by decide
/-- 44_pipeline_engine R217: the out-of-range report ends the run. -/
theorem test_out_of_range :
    (nextOf (step { State.reset with input := [.outOfRange] })).map (fun t => (t.status, t.cycle, t.stats.dynInstr)) =
    some (.error, 0, 0) := by decide

/-- A load about to enter Memory with a data cache of latency 5 (95_test_vectors S1's configuration). -/
def loadInExecute : State :=
  { State.construct ⟨⟨8, 8, 1, 5⟩, ⟨8, 8, 1, 5⟩, {}⟩ with
    slot := ⟨.instr 0xFEEDFEED#32, .bubble, .instr 0x8D280008#32, .bubble, .bubble⟩
    hist := ⟨.noAddr, .noAddr, .addr 0x108, .noAddr, .noAddr⟩
    halted := true
    drain := 4 }

/-- 44_pipeline_engine R229: entering Memory looks the address up; the miss arms the freeze. -/
theorem test_load_enters_memory :
    (nextOf (step loadInExecute)).map (fun t => (t.stall, t.dMissInMem, t.dcache.misses, t.drain)) =
    some (⟨0, 5, 0, 0⟩, true, 1, 3) := by decide

/-! ### Witnesses: a concrete state and operands for the hypotheses of each obligation that has some -/

theorem witness_EncodeOfDecodedIsTheWord : decode 0x01095020#32 = .ok (.add 8#5 9#5 10#5 0#5) := by decide

/-- A normal cycle's hypotheses, the word decoding, and the word rejected. -/
theorem witness_StepRunsTheDecodedInstruction :
    ((fed (recordFor 0x01095020#32)).status = .running ∧ (fed (recordFor 0x01095020#32)).halted = false ∧
      (fed (recordFor 0x01095020#32)).flush = 0 ∧ (fed (recordFor 0x01095020#32)).stall = ⟨0, 0, 0, 0⟩ ∧
      (fed (recordFor 0x01095020#32)).nextResponse = .record (recordFor 0x01095020#32) ∧
      decode (recordFor 0x01095020#32).word = .ok (.add 8#5 9#5 10#5 0#5)) ∧
    (fed (recordFor 0xFC000000#32)).nextResponse = .record (recordFor 0xFC000000#32) ∧
    decode (recordFor 0xFC000000#32).word = .error (.illegalOpcode 0x3F#6) := by decide

theorem witness_TransitionIsThePseudocode : loadInExecute.params = {} := by decide

theorem witness_RequestAfterTheEndChangesNothing :
    ({ State.reset with status := .halt } : State).status = .halt ∧
    (State.construct ⟨config 64 16 0, config 64 16 1, {}⟩).status = .error := by decide

/-- One state for each alternative. -/
theorem witness_OnlyFetchingCyclesReadTheExecutor :
    ({ State.reset with status := .halt } : State).status ≠ .running ∧
    ({ State.reset with flush := 1 } : State).flush ≠ 0 ∧
    ({ State.reset with stall := ⟨0, 0, 0, 1⟩ } : State).stall ≠ ⟨0, 0, 0, 0⟩ ∧ loadInExecute.halted = true := by decide

theorem witness_StepAfterWithFetchWordRunsTheWord : decodeTableWord 32 0x8D280008 = some (.lw 9#5 8#5 8#16) := by decide

/-- A flush of one, and of three cycles. -/
theorem witness_FlushCycleInjectsBubble :
    ({ State.reset with flush := 1 } : State).status = .running ∧ ({ State.reset with flush := 1 } : State).flush ≠ 0 ∧
    ({ State.reset with flush := 3 } : State).flush ≠ 0 := by decide

/-- A state that stalls. -/
def stalling (b : BubbleStage) (t : StallState) (m : Bool) : State :=
  { State.reset with params := { stallBubbleStage := b }, stall := t, dMissInMem := m }

/-- The hypotheses of a regular stall cycle. -/
abbrev RegularStall (s : State) : Prop :=
  s.status = .running ∧ s.flush = 0 ∧ s.stall ≠ ⟨0, 0, 0, 0⟩ ∧
    ¬ (s.stall.iMiss = 0 ∧ s.stall.dMiss ≠ 0 ∧ s.dMissInMem = true)

/-- Each counter active at its boundary value 1, lower ones pending, and both stages. -/
theorem witness_RegularStallHoldsFetchAndServesOneUnit :
    RegularStall (stalling .execute ⟨1, 1, 1, 1⟩ true) ∧ RegularStall (stalling .execute ⟨0, 1, 1, 1⟩ false) ∧
    RegularStall (stalling .decode ⟨0, 0, 1, 1⟩ false) ∧ RegularStall (stalling .decode ⟨0, 0, 0, 1⟩ true) := by decide

theorem witness_DataMissFreezeClearsWritebackOnly :
    (stalling .execute ⟨0, 1, 2, 0⟩ true).status = .running ∧ (stalling .execute ⟨0, 1, 2, 0⟩ true).flush = 0 ∧
    (stalling .execute ⟨0, 1, 2, 0⟩ true).stall.iMiss = 0 ∧ (stalling .execute ⟨0, 1, 2, 0⟩ true).stall.dMiss ≠ 0 ∧
    (stalling .execute ⟨0, 1, 2, 0⟩ true).dMissInMem = true := by decide

/-- The first drain cycle; and the last one. -/
theorem witness_DrainCycleShiftsBubbleAndEndsInHalt :
    (loadInExecute.status = .running ∧ loadInExecute.flush = 0 ∧ loadInExecute.stall = ⟨0, 0, 0, 0⟩ ∧
      loadInExecute.halted = true) ∧
    ({ loadInExecute with drain := 1 } : State).drain - 1 = 0 := by decide

theorem witness_OutOfRangeReportAbortsTheRun :
    ({ State.reset with input := [.outOfRange] } : State).status = .running ∧
    ({ State.reset with input := [.outOfRange] } : State).halted = false ∧
    ({ State.reset with input := [.outOfRange] } : State).flush = 0 ∧
    ({ State.reset with input := [.outOfRange] } : State).stall = ⟨0, 0, 0, 0⟩ ∧
    ({ State.reset with input := [.outOfRange] } : State).nextResponse = .outOfRange := by decide

/-- A record without a fault is next. -/
abbrev Plain (w : Word) : Prop :=
  (fed (recordFor w)).nextResponse = .record (recordFor w) ∧ (recordFor w).halt = false ∧ (recordFor w).valid = true ∧
    (recordFor w).overflow = false

theorem witness_ArithmeticOpsAreFetched : Plain (encode (.add 8#5 9#5 10#5 0#5)) := by decide
theorem witness_ImmediateOpsAreFetched : Plain (encode (.addi 8#5 9#5 0xFFFC#16)) := by decide
theorem witness_LoadsAreFetchedWithTheirAddress : Plain (encode (.lw 9#5 8#5 8#16)) := by decide
theorem witness_StoresAreFetchedWithTheirAddress : Plain (encode (.sw 9#5 8#5 8#16)) := by decide
theorem witness_BranchesAreFetched : Plain (encode (.beq 8#5 9#5 3#16)) := by decide
theorem witness_JumpsAreFetchedWithoutHazard : Plain (encode (.jal 0x10#26)) ∧ Plain (encode (.jr 31#5 0#5 0#5 0#5)) := by decide

theorem witness_HaltIsFetchedAndLatched :
    (fed (recordFor 0xFEEDFEED#32)).nextResponse = .record (recordFor 0xFEEDFEED#32) ∧
    (recordFor 0xFEEDFEED#32).halt = true := by decide

theorem witness_IllegalWordArmsTwoFlushCycles :
    classifyWord (recordFor 0xFC000000#32).word = .illegal ∧ (fed (recordFor 0xFC000000#32)).status = .running ∧
    (fed (recordFor 0xFC000000#32)).halted = false ∧ (fed (recordFor 0xFC000000#32)).flush = 0 ∧
    (fed (recordFor 0xFC000000#32)).stall = ⟨0, 0, 0, 0⟩ ∧
    (fed (recordFor 0xFC000000#32)).nextResponse = .record (recordFor 0xFC000000#32) ∧
    (recordFor 0xFC000000#32).valid = false ∧ (recordFor 0xFC000000#32).halt = false := by decide

/-- A record with each combination of flags that the statement tells apart. -/
theorem witness_RecordFlagsDecideHaltAndFlush :
    (fed ⟨0, 0x01095020#32, .noAddr, false, true, true⟩).nextResponse = .record ⟨0, 0x01095020#32, .noAddr, false, true, true⟩ ∧
    (fed ⟨0, 0x01095020#32, .noAddr, false, true, false⟩).nextResponse = .record ⟨0, 0x01095020#32, .noAddr, false, true, false⟩ ∧
    (fed ⟨0, 0x01095020#32, .noAddr, true, true, false⟩).nextResponse = .record ⟨0, 0x01095020#32, .noAddr, true, true, false⟩ ∧
    (fed ⟨0, 0x01095020#32, .noAddr, true, false, false⟩).nextResponse = .record ⟨0, 0x01095020#32, .noAddr, true, false, false⟩ := by
  decide

theorem witness_OutOfRangeInPlaceOfAnyInstruction :
    ({ State.reset with input := [.outOfRange] } : State).nextResponse = .outOfRange := by decide

/-- The hypotheses of a hazard: a normal cycle that fetches `w` behind `f` and `d`. -/
abbrev Fetches (f d : Slot) (w : Word) : Prop :=
  (behind f d (recordFor w)).status = .running ∧ (behind f d (recordFor w)).halted = false ∧
  (behind f d (recordFor w)).flush = 0 ∧ (behind f d (recordFor w)).stall = ⟨0, 0, 0, 0⟩ ∧
  (behind f d (recordFor w)).nextResponse = .record (recordFor w) ∧ (behind f d (recordFor w)).slot.fetch = f ∧
  (behind f d (recordFor w)).slot.decode = d

/-- `add $1, $2, $3` and `addi $1, $0, 1` before `beq $1, $1`. -/
theorem witness_OpBranchStallsOneCycle :
    Fetches (.instr 0x00430820#32) .bubble 0x10210001#32 ∧ classifyWord 0x10210001#32 = .branch ∧
    classifyWord 0x00430820#32 = .arithmeticOp ∧ destRegWord 0x00430820#32 = some 1#5 ∧ 1#5 ∈ srcRegsWord 0x10210001#32 ∧
    Fetches (.instr 0x20010001#32) .bubble 0x10210001#32 ∧ classifyWord 0x20010001#32 = .arithmeticImmediateOp ∧
    destRegWord 0x20010001#32 = some 1#5 := by decide

/-- `lw $1, 0($4)` before `beq $1, $1`. -/
theorem witness_LoadBranchStallsTwoCycles :
    Fetches (.instr 0x8C810000#32) .bubble 0x10210001#32 ∧ classifyWord 0x10210001#32 = .branch ∧
    classifyWord 0x8C810000#32 = .load ∧ destRegWord 0x8C810000#32 = some 1#5 ∧ 1#5 ∈ srcRegsWord 0x10210001#32 := by decide

/-- `lw $1, 0($4)` before `add $2, $1, $1`, and `lw $8, 0($4)` before `addi $9, $8, 1`. -/
theorem witness_LoadOpStallsOneCycle :
    Fetches (.instr 0x8C810000#32) .bubble 0x00211020#32 ∧ classifyWord 0x00211020#32 = .arithmeticOp ∧
    classifyWord 0x8C810000#32 = .load ∧ destRegWord 0x8C810000#32 = some 1#5 ∧ 1#5 ∈ srcRegsWord 0x00211020#32 ∧
    Fetches (.instr 0x8C880000#32) .bubble 0x21090001#32 ∧ classifyWord 0x21090001#32 = .arithmeticImmediateOp ∧
    destRegWord 0x8C880000#32 = some 8#5 ∧ 8#5 ∈ srcRegsWord 0x21090001#32 := by decide

/-- One pair for each alternative: an empty Decode, `lw` before `sw`, `jal` before `beq`, `add` before `add`, and `lw $8`
before `addi $8, $9, 1`. -/
theorem witness_NoOtherPairStalls :
    Fetches .bubble .bubble 0x10210001#32 ∧
    (Fetches (.instr 0x8C810000#32) .bubble 0xAC410000#32 ∧
      classifyWord 0xAC410000#32 ∉ [.branch, .arithmeticOp, .arithmeticImmediateOp]) ∧
    (Fetches (.instr 0x0C000010#32) .bubble 0x10210001#32 ∧
      classifyWord 0x0C000010#32 ∉ [.load, .arithmeticOp, .arithmeticImmediateOp]) ∧
    (Fetches (.instr 0x012A4020#32) .bubble 0x01085820#32 ∧ classifyWord 0x01085820#32 ≠ .branch ∧
      classifyWord 0x012A4020#32 ≠ .load) ∧
    (Fetches (.instr 0x8C880000#32) .bubble 0x21280001#32 ∧
      ∀ d, destRegWord 0x8C880000#32 = some d → d ∉ srcRegsWord 0x21280001#32) ∧
    State.reset.params.execLoadBranchStall = 0 := by decide

/-- `lw $8, 0($4)`, one `nop`, `beq $8, $8` (95_test_vectors H12); the nop's destination 0 is no source. -/
theorem witness_LoadInExecuteStallsByTheOpenParameter :
    Fetches (.instr 0x00000000#32) (.instr 0x8C880000#32) 0x11080001#32 ∧ classifyWord 0x11080001#32 = .branch ∧
    classifyWord 0x8C880000#32 = .load ∧ destRegWord 0x8C880000#32 = some 8#5 ∧ 8#5 ∈ srcRegsWord 0x11080001#32 ∧
    classifyWord 0x00000000#32 ∈ [.arithmeticOp, .arithmeticImmediateOp, .load] ∧
    ∀ d, destRegWord 0x00000000#32 = some d → d ∉ srcRegsWord 0x11080001#32 := by decide

/-- A two-way configuration with two sets. -/
def twoWay : CacheConfig := ⟨64, 16, 2, 5⟩

/-- A cache whose first set is full and whose second set holds one block. -/
def someCache : Cache := ⟨twoWay, [[⟨7, true, 2⟩, ⟨3, true, 1⟩], [⟨1, true, 1⟩, ⟨0, false, 0⟩]], 4, 3⟩

/-- A direct-mapped cache that holds two blocks. -/
def directCache : Cache := ⟨⟨32, 16, 1, 5⟩, [[⟨7, true, 1⟩], [⟨1, true, 1⟩]], 0, 2⟩

theorem witness_setOk_full : SetOk twoWay [⟨7, true, 2⟩, ⟨3, true, 1⟩] := by constructor <;> decide
theorem witness_setOk_half : SetOk twoWay [⟨1, true, 1⟩, ⟨0, false, 0⟩] := by constructor <;> decide

/-- CacheOk of a cache that is neither empty nor full. -/
theorem witness_AccessKeepsCacheInvariant : CacheOk someCache where
  config := by decide
  sets := by decide
  each ws h := by
    obtain rfl | rfl : ws = [⟨7, true, 2⟩, ⟨3, true, 1⟩] ∨ ws = [⟨1, true, 1⟩, ⟨0, false, 0⟩] := by simpa [someCache] using h
    · exact witness_setOk_full
    · exact witness_setOk_half

theorem witness_SameBlockIsSameSetAndTag : validConfig twoWay = true := by decide

/-- Two addresses of one block: its first and its last byte. -/
theorem witness_AccessedBlockIsMostRecentAndHits : CacheOk someCache ∧
    (0x60#32).toNat >>> offsetBits someCache.cfg = (0x6F#32).toNat >>> offsetBits someCache.cfg :=
  ⟨witness_AccessKeepsCacheInvariant, by decide⟩

theorem witness_HitMovesMatchedWayToFront : CacheOk someCache ∧
    (⟨7, true, 2⟩ : Way) ∈ someCache.sets.getD (setIndex someCache.cfg 0xE0#32) [] ∧
    (⟨7, true, 2⟩ : Way).holds (tagOf someCache.cfg 0xE0#32) = true :=
  ⟨witness_AccessKeepsCacheInvariant, by decide, by decide⟩

/-- The address's tag is 0, the filler of the invalid way. -/
theorem witness_MissFillsFirstInvalidWay : CacheOk someCache ∧
    someCache.sets.getD (setIndex someCache.cfg 0x10#32) [] = [⟨1, true, 1⟩] ++ ⟨0, false, 0⟩ :: [] ∧
    (∀ v ∈ [(⟨1, true, 1⟩ : Way)], v.valid = true) ∧ (⟨0, false, 0⟩ : Way).valid = false ∧
    someCache.resident 0x10#32 = false :=
  ⟨witness_AccessKeepsCacheInvariant, by decide, by decide, rfl, by decide⟩

theorem witness_DirectMappedConflictMisses : CacheOk directCache ∧ directCache.cfg.ways = 1 ∧
    setIndex directCache.cfg 0x00#32 = setIndex directCache.cfg 0x20#32 ∧
    tagOf directCache.cfg 0x00#32 ≠ tagOf directCache.cfg 0x20#32 := by
  refine ⟨⟨by decide, by decide, fun ws h => ?_⟩, by decide, by decide, by decide⟩
  obtain rfl | rfl : ws = [⟨7, true, 1⟩] ∨ ws = [⟨1, true, 1⟩] := by simpa [directCache] using h
  · constructor <;> decide
  · constructor <;> decide

theorem witness_MissInFullSetEvictsTheOldest : CacheOk someCache ∧
    (someCache.sets.getD (setIndex someCache.cfg 0x00#32) []).all Way.valid = true ∧ someCache.resident 0x00#32 = false :=
  ⟨witness_AccessKeepsCacheInvariant, by decide, by decide⟩

/-- A step exists: one that looks up both caches. -/
theorem witness_EachCacheChangesOnlyByItsOwnLookups :
    ∃ t, step { loadInExecute with halted := false, drain := 0, input := [.record (recordFor 0x01095020#32)] } = .next t ∧
      t.icache.misses = 1 ∧ t.dcache.misses = 1 := ⟨_, rfl, by decide, by decide⟩

theorem witness_ResetLeavesEverythingEmpty : (Setup.mk twoWay (config 48 4 3) {}).wellFormed = true := by decide
theorem witness_InvalidConfigurationNeverStarts : (Setup.mk twoWay (config 4 8 1) {}).wellFormed = false := by decide
theorem witness_ResetMeetsInvariantAndAccounts : (Setup.mk (config 1 1 1) twoWay {}).wellFormed = true := by decide

/-- The empty cache meets what must hold of a cache. -/
theorem witness_freshCache : CacheOk (freshCache ⟨64, 16, 1, 0⟩) where
  config := by decide
  sets := by decide
  each ws h := by
    obtain rfl : ws = [Way.invalid] := by simpa [freshCache, setCount] using h
    constructor <;> decide

/-- The halt in Execute behind a load whose miss freezes Memory, and the executor's next answer well-formed. -/
def frozenDrain : State :=
  { State.reset with
    slot := ⟨.bubble, .bubble, .instr 0xFEEDFEED#32, .instr 0x8D280008#32, .bubble⟩
    hist := ⟨.noAddr, .noAddr, .noAddr, .addr 0x108, .noAddr⟩
    stall := ⟨0, 3, 0, 0⟩
    dMissInMem := true
    halted := true
    drain := 2
    input := [.record (recordFor 0x01095020#32)] }

/-- The halt in Memory, one drain cycle before the end. -/
def lastDrain : State :=
  { State.reset with
    slot := ⟨.bubble, .bubble, .bubble, .instr 0xFEEDFEED#32, .instr 0x8D280008#32⟩
    hist := ⟨.noAddr, .noAddr, .noAddr, .noAddr, .addr 0x108⟩
    halted := true
    drain := 1 }

theorem witness_inv_frozenDrain : Inv Classifier.mips frozenDrain where
  icache := witness_freshCache
  dcache := witness_freshCache
  hist st a h := by cases st <;> first | rfl | exact Touched.noConfusion h
  missInMem _ := by decide
  drain := by constructor <;> simp [frozenDrain, State.reset, State.construct, State.resetWith, haltSlot, youngerEmpty] <;> decide

theorem witness_inv_lastDrain : Inv Classifier.mips lastDrain where
  icache := witness_freshCache
  dcache := witness_freshCache
  hist st a h := by cases st <;> first | rfl | exact Touched.noConfusion h
  missInMem h := absurd h (by decide)
  drain := by constructor <;> simp [lastDrain, State.reset, State.construct, State.resetWith, haltSlot, youngerEmpty] <;> decide

theorem witness_StepKeepsInvariant : Inv Classifier.mips frozenDrain ∧ ∃ t, step frozenDrain = .next t :=
  ⟨witness_inv_frozenDrain, _, rfl⟩

theorem witness_HaltWordStaysInPlace : Inv Classifier.mips frozenDrain ∧ HaltWordInPlace Classifier.mips frozenDrain ∧
    frozenDrain.nextResponse.wellFormed Classifier.mips = true ∧ ∃ t, step frozenDrain = .next t :=
  ⟨witness_inv_frozenDrain, fun _ => by decide, by decide, _, rfl⟩

theorem witness_HaltLeavesEmptyPipeline : Inv Classifier.mips lastDrain ∧ HaltWordInPlace Classifier.mips lastDrain ∧
    lastDrain.status = .running ∧ ∃ t, step lastDrain = .next t ∧ t.status = .halt :=
  ⟨witness_inv_lastDrain, fun _ => by decide, by decide, _, rfl, by decide⟩

/-- 95_test_vectors H1 after cycle 2: the load-op stall is scheduled. -/
def afterLoadOp : State :=
  { State.reset with
    slot := ⟨.instr 0x00211020#32, .instr 0x8C810000#32, .bubble, .bubble, .bubble⟩
    hist := ⟨.noAddr, .addr 0x100, .noAddr, .noAddr, .noAddr⟩
    stall := ⟨0, 0, 0, 1⟩
    cycle := 2
    icache := { freshCache ⟨64, 16, 1, 0⟩ with hits := 1, misses := 1 }
    stats := ⟨2, 0, 0, 0, 0, 0⟩ }

/-- What holds of the empty cache holds whatever its counters are. -/
theorem witness_counted : CacheOk { freshCache ⟨64, 16, 1, 0⟩ with hits := 1, misses := 1 } :=
  ⟨witness_freshCache.config, witness_freshCache.sets, witness_freshCache.each⟩

theorem witness_StepKeepsAccounts : Inv Classifier.mips afterLoadOp ∧ Accounts { normal := 2, loadOp := 1 } afterLoadOp ∧
    ∃ t, step afterLoadOp = .next t := by
  refine ⟨⟨witness_counted, witness_freshCache, fun st a h => ?_, fun h => absurd h (by decide), ?_⟩, ?_, _, rfl⟩
  · cases st <;> first | rfl | exact Touched.noConfusion h
  · exact ⟨by decide, by decide, by decide, by decide, by decide, fun h => absurd h (by decide), by decide⟩
  · constructor <;> decide

/-- The end of a run of one halt (95_test_vectors S8: four drain cycles). -/
def ended : State :=
  { State.reset with
    slot := ⟨.bubble, .bubble, .bubble, .bubble, .instr 0xFEEDFEED#32⟩
    halted := true
    status := .halt
    cycle := 6
    icache := { freshCache ⟨64, 16, 1, 0⟩ with hits := 1, misses := 1 }
    stats := ⟨2, 0, 0, 0, 0, 0⟩ }

theorem witness_CycleCountAtHalt : Inv Classifier.mips ended ∧ Accounts { normal := 6 } ended ∧ ended.status = .halt ∧
    ended.params.execLoadBranchStall = 0 := by
  refine ⟨⟨witness_counted, witness_freshCache, fun st a h => ?_, fun h => absurd h (by decide), ?_⟩, ?_, by decide, by decide⟩
  · cases st <;> exact Touched.noConfusion h
  · constructor <;> simp [ended, State.reset, State.construct, State.resetWith, haltSlot, youngerEmpty] <;> decide
  · constructor <;> decide

theorem witness_ConfigurationNeverChanges : ∃ t, step loadInExecute = .next t ∧ t ≠ loadInExecute := ⟨_, rfl, by decide⟩
/-- A completed cycle that fetches. -/
theorem witness_InstructionsNeverOvertake :
    ∃ t, step (behind (.instr 0x8C810000#32) .bubble (recordFor 0x00211020#32)) = .next t ∧ t.cycle = 1 :=
  ⟨_, rfl, by decide⟩
theorem witness_StatisticsNeverDecrease : ∃ t, step frozenDrain = .next t ∧ t.statistics ≠ frozenDrain.statistics :=
  ⟨_, rfl, by decide⟩

/-- An abort, and the same response pending in a flush cycle, which completes. -/
theorem witness_EachCompletedCycleEmitsOneSnapshot :
    let aborts := { State.reset with input := [.outOfRange] }
    let flushes := { aborts with flush := 1 }
    (aborts.status = .running ∧ (shapeOf aborts = .fetch ∧ aborts.nextResponse = .outOfRange) ∧
      ∃ t, step aborts = .next t ∧ t.status = .error) ∧
    flushes.status = .running ∧ ¬ (shapeOf flushes = .fetch ∧ flushes.nextResponse = .outOfRange) ∧
      ∃ t, step flushes = .next t ∧ t.cycle = 1 :=
  ⟨⟨by decide, by decide, _, rfl, by decide⟩, by decide, by decide, _, rfl, by decide⟩

/-- A bounded run that completes, and one that the end cuts short. -/
theorem witness_BoundedRunsCompose :
    (∃ t, runCycles 1 loadInExecute = .next (.success, t)) ∧ ∃ t, runCycles 2 lastDrain = .next (.halt, t) :=
  ⟨⟨_, rfl⟩, _, rfl⟩

/-- The last word inside the window, and the first one that is not. -/
theorem witness_MemoryStoreReadsBackWhatWasWritten :
    (MemoryStore.mk 0x100 8 [(0x104, 7#8)]).cells.wf ∧
    (0x100 ≤ (0x104#32).toNat ∧ (0x104#32).toNat + Width.word.bytes ≤ 0x100 + 8) ∧
    ¬ (0x100 ≤ (0x105#32).toNat ∧ (0x105#32).toNat + Width.word.bytes ≤ 0x100 + 8) := by decide

end Sys2Proof.Tests
end

