-- ==== Sys2Proof/Proofs/Encoding.lean ====
section
/-! PROOFS. 30_encoding: the decoder and the encoder are inverse to each other on the words of the table (R81, R82,
R91); the kind, the destination and the sources of an instruction's word (R88, R89); and the row of R92 that selects a
word, against the instruction the word decodes to. -/

namespace Sys2Proof

open Machine

/-! ### Decoder and encoder -/

/-- The decoder reads back the instruction that was encoded (R81, R82, R91). -/
theorem decode_encode (i : Instr) : decode (encode i) = .ok i := by
  cases i with
  | halt => rfl
  | _ => simp [encode, decode, ne_haltWord_of_opcode]

theorem encodeR_of_fields {w : Word} {fn : BitVec 6} (hop : opcode w = 0#6) (hfn : funct w = fn) :
    encodeR fn (rs w) (rt w) (rd w) (shamt w) = w := hfn ▸ encodeR_fields w hop

theorem encodeI_of_opcode {w : Word} {op : BitVec 6} (hop : opcode w = op) :
    encodeI op (rs w) (rt w) (imm w) = w := hop ▸ encodeI_fields w

theorem encodeJ_of_opcode {w : Word} {op : BitVec 6} (hop : opcode w = op) :
    encodeJ op (target w) = w := hop ▸ encodeJ_fields w

/-- The word of the instruction that the decoder answers is the word it was given (R82, R91). -/
theorem encode_of_decode {w : Word} {i : Instr} (h : decode w = .ok i) : encode i = w := by
  unfold decode at h
  split at h
  next hhalt => cases h; exact hhalt.symm
  next =>
    split at h
    next hop => split at h <;> cases h <;> exact encodeR_of_fields hop ‹_›
    next hop => cases h; exact encodeJ_of_opcode hop
    next hop => cases h; exact encodeJ_of_opcode hop
    all_goals cases h <;> exact encodeI_of_opcode ‹_›

/-! ### Kind, destination and sources of an instruction's word -/

theorem classifyWord_of_decode {w : Word} {i : Instr} (h : decode w = .ok i) : classifyWord w = i.kind := by
  simp [classifyWord, h]

@[simp] theorem classifyWord_encode (i : Instr) : classifyWord (encode i) = i.kind :=
  classifyWord_of_decode (decode_encode i)

/-- Every word is Illegal or the word of an instruction (R91, R93). -/
theorem classifyWord_illegal_or_encode (w : Word) : classifyWord w = .illegal ∨ ∃ i, w = encode i := by
  cases h : decode w with
  | ok i => exact .inr ⟨i, (encode_of_decode h).symm⟩
  | error e => exact .inl (by simp [classifyWord, h])

/-- The destination register of an instruction, by its own fields (R88); `destRegWord_encode` ties it to the model,
as `srcRegsWord_encode` does `sourcesOf`. -/
def destOf : Instr → Option RegNum
  | .sll _ _ rd _ | .srl _ _ rd _ | .add _ _ rd _ | .addu _ _ rd _ | .sub _ _ rd _ | .subu _ _ rd _ => some rd
  | .and _ _ rd _ | .or _ _ rd _ | .nor _ _ rd _ | .slt _ _ rd _ | .sltu _ _ rd _ => some rd
  | .addi _ rt _ | .addiu _ rt _ | .slti _ rt _ | .sltiu _ rt _ | .andi _ rt _ | .ori _ rt _ | .lui _ rt _ => some rt
  | .lw _ rt _ | .lbu _ rt _ | .lhu _ rt _ => some rt
  | .sb _ _ _ | .sh _ _ _ | .sw _ _ _ | .beq _ _ _ | .bne _ _ _ | .blez _ _ _ | .bgtz _ _ _ => none
  | .j _ | .jal _ | .jr _ _ _ _ | .halt => none

theorem destRegWord_encode (i : Instr) : destRegWord (encode i) = destOf i := by
  unfold destRegWord loadTargetRegister
  rw [classifyWord_encode]
  cases i <;> simp [Instr.kind, encode, destOf]

theorem srcRegsWord_encode (i : Instr) : srcRegsWord (encode i) = sourcesOf i := by
  unfold srcRegsWord branchSourceRegisters
  rw [classifyWord_encode]
  cases i <;> simp [Instr.kind, encode, sourcesOf]

theorem destRegWord_of_illegal {w : Word} (h : classifyWord w = .illegal) : destRegWord w = none := by
  simp [destRegWord, h]

theorem srcRegsWord_of_illegal {w : Word} (h : classifyWord w = .illegal) : srcRegsWord w = [] := by
  simp [srcRegsWord, h]

/-- Settles O6: the words of the instructions by `destOf` and `sourcesOf`, the Illegal words by their kind. -/
theorem destinationAndSourcesOfEncodedWords : Obligations.DestinationAndSourcesOfEncodedWords := by
  unfold Obligations.DestinationAndSourcesOfEncodedWords
  simp only [destRegWord_encode, srcRegsWord_encode]
  refine ⟨?arithmetic, ?immediateFormat, ?jumpsAndHalt, ?illegal, classifyWord_illegal_or_encode⟩
  case arithmetic => simp [destOf, sourcesOf]
  case immediateFormat => simp [destOf, sourcesOf]
  case jumpsAndHalt => simp [destOf, sourcesOf]
  case illegal => exact fun w h => ⟨destRegWord_of_illegal h, srcRegsWord_of_illegal h⟩

/-! ### The rows of the table -/

theorem selects_iff {r : TableRow} {w : Word} : r.selects w = true ↔ w &&& r.mask = r.pattern := by
  simp [TableRow.selects]

/-- The row of the halt word selects only that word. -/
theorem haltWord_of_selects {m : String} {k : OpKind} {w : Word}
    (h : (TableRow.mk m haltWord 0xFFFFFFFF#32 k).selects w = true) : haltWord = w := by
  have hw : w &&& BitVec.allOnes 32 = haltWord := selects_iff.1 h
  rw [BitVec.and_allOnes] at hw
  exact hw.symm

/-- A row of the funct selects only words of the R format with that funct. -/
theorem encodeR_of_selects {m : String} {k : OpKind} {fn : BitVec 6} {w : Word}
    (h : (TableRow.mk m (0#26 ++ fn) 0xFC00003F#32 k).selects w = true) :
    encodeR fn (rs w) (rt w) (rd w) (shamt w) = w := by
  obtain ⟨hop, hfn⟩ := (and_functMask w fn).1 (selects_iff.1 h)
  exact encodeR_of_fields hop hfn

/-- A row of the opcode selects only words with that opcode. -/
theorem opcode_of_selects {m : String} {k : OpKind} {op : BitVec 6} {w : Word}
    (h : (TableRow.mk m (op ++ 0#26) 0xFC000000#32 k).selects w = true) : opcode w = op :=
  (and_opcodeMask w op).1 (selects_iff.1 h)

theorem encodeI_of_selects {m : String} {k : OpKind} {op : BitVec 6} {w : Word}
    (h : (TableRow.mk m (op ++ 0#26) 0xFC000000#32 k).selects w = true) :
    encodeI op (rs w) (rt w) (imm w) = w := encodeI_of_opcode (opcode_of_selects h)

theorem encodeJ_of_selects {m : String} {k : OpKind} {op : BitVec 6} {w : Word}
    (h : (TableRow.mk m (op ++ 0#26) 0xFC000000#32 k).selects w = true) :
    encodeJ op (target w) = w := encodeJ_of_opcode (opcode_of_selects h)

/-- Whatever row of R92 selects a word, the word is one of an instruction with the row's mnemonic and kind. -/
theorem exists_encode_of_selects (w : Word) : ∀ r ∈ tableRows, r.selects w = true →
    ∃ i, encode i = w ∧ mnemonicOf i = r.mnemonic ∧ i.kind = r.kind := by
  simp only [tableRows, List.forall_mem_cons]
  exact ⟨
    fun h => ⟨.halt, haltWord_of_selects h, rfl, rfl⟩,
    fun h => ⟨.sll (rs w) (rt w) (rd w) (shamt w), encodeR_of_selects h, rfl, rfl⟩,
    fun h => ⟨.srl (rs w) (rt w) (rd w) (shamt w), encodeR_of_selects h, rfl, rfl⟩,
    fun h => ⟨.jr (rs w) (rt w) (rd w) (shamt w), encodeR_of_selects h, rfl, rfl⟩,
    fun h => ⟨.add (rs w) (rt w) (rd w) (shamt w), encodeR_of_selects h, rfl, rfl⟩,
    fun h => ⟨.addu (rs w) (rt w) (rd w) (shamt w), encodeR_of_selects h, rfl, rfl⟩,
    fun h => ⟨.sub (rs w) (rt w) (rd w) (shamt w), encodeR_of_selects h, rfl, rfl⟩,
    fun h => ⟨.subu (rs w) (rt w) (rd w) (shamt w), encodeR_of_selects h, rfl, rfl⟩,
    fun h => ⟨.and (rs w) (rt w) (rd w) (shamt w), encodeR_of_selects h, rfl, rfl⟩,
    fun h => ⟨.or (rs w) (rt w) (rd w) (shamt w), encodeR_of_selects h, rfl, rfl⟩,
    fun h => ⟨.nor (rs w) (rt w) (rd w) (shamt w), encodeR_of_selects h, rfl, rfl⟩,
    fun h => ⟨.slt (rs w) (rt w) (rd w) (shamt w), encodeR_of_selects h, rfl, rfl⟩,
    fun h => ⟨.sltu (rs w) (rt w) (rd w) (shamt w), encodeR_of_selects h, rfl, rfl⟩,
    fun h => ⟨.j (target w), encodeJ_of_selects h, rfl, rfl⟩,
    fun h => ⟨.jal (target w), encodeJ_of_selects h, rfl, rfl⟩,
    fun h => ⟨.beq (rs w) (rt w) (imm w), encodeI_of_selects h, rfl, rfl⟩,
    fun h => ⟨.bne (rs w) (rt w) (imm w), encodeI_of_selects h, rfl, rfl⟩,
    fun h => ⟨.blez (rs w) (rt w) (imm w), encodeI_of_selects h, rfl, rfl⟩,
    fun h => ⟨.bgtz (rs w) (rt w) (imm w), encodeI_of_selects h, rfl, rfl⟩,
    fun h => ⟨.addi (rs w) (rt w) (imm w), encodeI_of_selects h, rfl, rfl⟩,
    fun h => ⟨.addiu (rs w) (rt w) (imm w), encodeI_of_selects h, rfl, rfl⟩,
    fun h => ⟨.slti (rs w) (rt w) (imm w), encodeI_of_selects h, rfl, rfl⟩,
    fun h => ⟨.sltiu (rs w) (rt w) (imm w), encodeI_of_selects h, rfl, rfl⟩,
    fun h => ⟨.andi (rs w) (rt w) (imm w), encodeI_of_selects h, rfl, rfl⟩,
    fun h => ⟨.ori (rs w) (rt w) (imm w), encodeI_of_selects h, rfl, rfl⟩,
    fun h => ⟨.lui (rs w) (rt w) (imm w), encodeI_of_selects h, rfl, rfl⟩,
    fun h => ⟨.lw (rs w) (rt w) (imm w), encodeI_of_selects h, rfl, rfl⟩,
    fun h => ⟨.lbu (rs w) (rt w) (imm w), encodeI_of_selects h, rfl, rfl⟩,
    fun h => ⟨.lhu (rs w) (rt w) (imm w), encodeI_of_selects h, rfl, rfl⟩,
    fun h => ⟨.sb (rs w) (rt w) (imm w), encodeI_of_selects h, rfl, rfl⟩,
    fun h => ⟨.sh (rs w) (rt w) (imm w), encodeI_of_selects h, rfl, rfl⟩,
    fun h => ⟨.sw (rs w) (rt w) (imm w), encodeI_of_selects h, rfl, rfl⟩,
    List.forall_mem_nil _⟩

/-- Every instruction's word is selected by a row of R92 that carries its mnemonic and kind. -/
theorem ownRow : ∀ i : Instr, Laws.OwnRow.Statement i
  | .halt => Laws.OwnRow.halt
  | .sll a b c d => Laws.OwnRow.sll a b c d
  | .srl a b c d => Laws.OwnRow.srl a b c d
  | .jr a b c d => Laws.OwnRow.jr a b c d
  | .add a b c d => Laws.OwnRow.add a b c d
  | .addu a b c d => Laws.OwnRow.addu a b c d
  | .sub a b c d => Laws.OwnRow.sub a b c d
  | .subu a b c d => Laws.OwnRow.subu a b c d
  | .and a b c d => Laws.OwnRow.and a b c d
  | .or a b c d => Laws.OwnRow.or a b c d
  | .nor a b c d => Laws.OwnRow.nor a b c d
  | .slt a b c d => Laws.OwnRow.slt a b c d
  | .sltu a b c d => Laws.OwnRow.sltu a b c d
  | .j t => Laws.OwnRow.j t
  | .jal t => Laws.OwnRow.jal t
  | .beq a b n => Laws.OwnRow.beq a b n
  | .bne a b n => Laws.OwnRow.bne a b n
  | .blez a b n => Laws.OwnRow.blez a b n
  | .bgtz a b n => Laws.OwnRow.bgtz a b n
  | .addi a b n => Laws.OwnRow.addi a b n
  | .addiu a b n => Laws.OwnRow.addiu a b n
  | .slti a b n => Laws.OwnRow.slti a b n
  | .sltiu a b n => Laws.OwnRow.sltiu a b n
  | .andi a b n => Laws.OwnRow.andi a b n
  | .ori a b n => Laws.OwnRow.ori a b n
  | .lui a b n => Laws.OwnRow.lui a b n
  | .lw a b n => Laws.OwnRow.lw a b n
  | .lbu a b n => Laws.OwnRow.lbu a b n
  | .lhu a b n => Laws.OwnRow.lhu a b n
  | .sb a b n => Laws.OwnRow.sb a b n
  | .sh a b n => Laws.OwnRow.sh a b n
  | .sw a b n => Laws.OwnRow.sw a b n

/-- Settles O4: a selecting row gives the instruction (`exists_encode_of_selects`), and a word that no row selects
decodes to nothing, since the word of every instruction has its row (`ownRow`). -/
theorem selectingRowGivesMnemonicAndKind : Obligations.SelectingRowGivesMnemonicAndKind := by
  intro w
  split
  next r hfind =>
    have hrow : r ∈ tableRows := List.mem_of_find?_eq_some hfind
    have hselects : r.selects w = true := List.find?_some (p := (TableRow.selects · w)) hfind
    obtain ⟨i, rfl, hmnemonic, hkind⟩ := exists_encode_of_selects w r hrow hselects
    exact ⟨(classifyWord_encode i).trans hkind, i, decode_encode i, hmnemonic⟩
  next hfind =>
    obtain hillegal | ⟨i, rfl⟩ := classifyWord_illegal_or_encode w
    · exact hillegal
    · obtain ⟨r, hr, -, -, hselects⟩ := ownRow i
      exact absurd hselects (List.find?_eq_none.1 hfind r hr)

end Sys2Proof
end

/-! PROOFS. 43_cache_model: what an access does to its own set in each of the three cases (R185, R186, R187), first as
an equation of `accessSet`, then carried to the cache; and the set with one way (R193). -/

namespace Sys2Proof.Machine

/-! ### An access is the lookup in its own set -/

/-- The set that an address selects (R183). -/
def Cache.setOf (c : Cache) (a : Word) : List Way := c.sets.getD (setIndex c.cfg a) []

theorem resident_eq (c : Cache) (a : Word) : c.resident a = (c.setOf a).any (Way.holds (tagOf c.cfg a)) := rfl

theorem setIndex_lt_sets_length {c : Cache} (h : CacheOk c) (a : Word) : setIndex c.cfg a < c.sets.length :=
  h.sets ▸ setIndex_lt h.config a

theorem setOk_setOf {c : Cache} (h : CacheOk c) (a : Word) : SetOk c.cfg (c.setOf a) := by
  have hlt := setIndex_lt_sets_length h a
  simpa [Cache.setOf, hlt] using h.each _ (List.getElem_mem hlt)

/-- An access leaves in its own set what the lookup there leaves (R184). -/
theorem setOf_access {c : Cache} (h : CacheOk c) {a b : Word} (x : Bool)
    (hi : setIndex c.cfg a = setIndex c.cfg b) :
    (c.access a x).2.setOf b = (accessSet c.cfg.ways (tagOf c.cfg a) (c.setOf a)).2 := by
  have hlt := setIndex_lt_sets_length h a
  simp [Cache.setOf, Cache.access, ← hi, hlt]

/-- What an access does, given what the lookup in its set answers (R184). -/
theorem access_of_accessSet {c : Cache} (h : CacheOk c) {a : Word} {hit : Bool} {ws : List Way} (x : Bool)
    (hs : accessSet c.cfg.ways (tagOf c.cfg a) (c.setOf a) = (hit, ws)) :
    (c.access a x).1 = hit ∧ (c.access a x).2.hits = c.hits + (if hit then 1 else 0) ∧
    (c.access a x).2.misses = c.misses + (if hit then 0 else 1) ∧ (c.access a x).2.setOf a = ws := by
  have hhit : (c.access a x).1 = hit := congrArg Prod.fst hs
  obtain ⟨hhits, hmisses⟩ := access_counters c a x
  rw [hhit] at hhits hmisses
  exact ⟨hhit, hhits, hmisses, (setOf_access h x rfl).trans (congrArg Prod.snd hs)⟩

theorem accessSet_fst (n t : Nat) (ws : List Way) : (accessSet n t ws).1 = ws.any (Way.holds t) := by
  rw [← List.isSome_find?]
  rcases accessSet_cases n t ws with ⟨m, hm, he⟩ | ⟨hm, -, he⟩ | ⟨hm, -, he⟩ <;> simp [hm, he]

/-- An access hits exactly when the block is resident (R184). -/
theorem access_fst (c : Cache) (a : Word) (x : Bool) : (c.access a x).1 = c.resident a :=
  accessSet_fst _ _ _

/-! ### A hit (R185) -/

theorem ageBelow_eq (r : Nat) (w : Way) :
    w.ageBelow r = if w.valid = true ∧ w.rank < r then { w with rank := w.rank + 1 } else w := by
  simp [Way.ageBelow]

/-- `promote` finds the first way that holds the tag. -/
theorem promote_append {t r : Nat} {vs us : List Way} {m : Way} (hvs : ∀ v ∈ vs, v.holds t = false)
    (hm : m.holds t = true) :
    promote t r (vs ++ m :: us) =
      vs.map (Way.ageBelow r) ++ { m with rank := 1 } :: us.map (Way.ageBelow r) := by
  induction vs with
  | nil => simp [promote, hm]
  | cons v vs ih =>
    obtain ⟨hv, hvs⟩ := List.forall_mem_cons.1 hvs
    simp [promote, hv, ih hvs]

theorem mem_validTags_of_holds {t : Nat} {ws : List Way} {w : Way} (hw : w ∈ ws) (h : w.holds t = true) :
    t ∈ validTags ws := by
  obtain ⟨hv, rfl⟩ := holds_iff.1 h
  exact List.mem_map_of_mem (List.mem_filter.2 ⟨hw, hv⟩)

/-- With distinct tags, no way beside the matched one holds its tag (R192). -/
theorem not_holds_beside {t : Nat} {vs us : List Way} {m : Way} (hn : (validTags (vs ++ m :: us)).Nodup)
    (hm : m.holds t = true) {w : Way} (hw : w ∈ vs ++ us) : w.holds t = false := by
  obtain ⟨hv, rfl⟩ := holds_iff.1 hm
  have hsplit : validTags (vs ++ m :: us) = validTags vs ++ m.tag :: validTags us := by simp [validTags, hv]
  have happend : validTags (vs ++ us) = validTags vs ++ validTags us := by simp [validTags]
  rw [hsplit, List.nodup_middle, ← happend] at hn
  exact Bool.eq_false_iff.2 fun h => (List.nodup_cons.1 hn).1 (mem_validTags_of_holds hw h)

/-- The lookup of a tag that way `m` holds: `m` moves to rank 1 and the valid ways of lower rank age (R185). -/
theorem accessSet_hit {n t : Nat} {ws : List Way} {m : Way} (hn : (validTags ws).Nodup) (hmem : m ∈ ws)
    (hm : m.holds t = true) :
    accessSet n t ws = (true, ws.map fun w => if w = m then { w with rank := 1 } else w.ageBelow m.rank) := by
  obtain ⟨vs, us, rfl⟩ := List.append_of_mem hmem
  have hother : ∀ w ∈ vs ++ us, w.holds t = false := fun w hw => not_holds_beside hn hm hw
  obtain ⟨hvs, hus⟩ := List.forall_mem_append.1 hother
  have hne : ∀ w : Way, w.holds t = false → w ≠ m := by rintro w hw rfl; simp [hm] at hw
  have hfind : (vs ++ m :: us).find? (Way.holds t) = some m :=
    List.find?_eq_some_iff_append.2 ⟨hm, vs, us, rfl, fun v hv => by simp [hvs v hv]⟩
  have hkeep : ∀ l : List Way, (∀ w ∈ l, w.holds t = false) →
      l.map (Way.ageBelow m.rank) = l.map fun w => if w = m then { w with rank := 1 } else w.ageBelow m.rank :=
    fun l hl => List.map_congr_left fun w hw => (if_neg (hne w (hl w hw))).symm
  simp only [accessSet, hfind, promote_append hvs hm, hkeep vs hvs, hkeep us hus, List.map_append, List.map_cons,
    if_pos]

/-- Settles O37: the lookup in the set is `accessSet_hit`. -/
theorem hitMovesMatchedWayToFront : Obligations.HitMovesMatchedWayToFront := by
  intro c a x m hok set hmem hholds
  obtain ⟨hhit, hhits, hmisses, hset⟩ :=
    access_of_accessSet hok x (accessSet_hit (setOk_setOf hok a).tags hmem hholds)
  simp only [ageBelow_eq] at hset
  exact ⟨hhit, hhits, hmisses, hset⟩

/-! ### A miss with a free way (R186) -/

theorem accessSet_miss {n t : Nat} {ws : List Way} (h : ws.any (Way.holds t) = false) :
    accessSet n t ws = (false, if ws.all Way.valid then evict n t ws else fill t ws) := by
  have hfind : ws.find? (Way.holds t) = none := by simpa using h
  simp only [accessSet, hfind]

/-- `fill` installs the tag in the first invalid way. -/
theorem fill_append {t : Nat} {vs us : List Way} {f : Way} (hvs : ∀ v ∈ vs, v.valid = true)
    (hf : f.valid = false) :
    fill t (vs ++ f :: us) = vs.map Way.age ++ { tag := t, valid := true, rank := 1 } :: us.map Way.age := by
  induction vs with
  | nil => simp [fill, hf]
  | cons v vs ih =>
    obtain ⟨hv, hvs⟩ := List.forall_mem_cons.1 hvs
    simp [fill, hv, ih hvs]

/-- Settles O38: the set is not full, so the lookup fills it, at the first invalid way (`fill_append`). -/
theorem missFillsFirstInvalidWay : Obligations.MissFillsFirstInvalidWay := by
  intro c a x vs us f hok hsplit hvs hf hmiss
  have hbefore : c.setOf a = vs ++ f :: us := hsplit
  have hfree : ¬ (c.setOf a).all Way.valid = true := by simp [hbefore, hf]
  obtain ⟨hhit, hhits, hmisses, hafter⟩ := access_of_accessSet hok x (accessSet_miss hmiss)
  have hage : vs.map Way.age = vs.map fun w => { w with rank := w.rank + 1 } :=
    List.map_congr_left fun v hv => if_pos (hvs v hv)
  rw [if_neg hfree, hbefore, fill_append hvs hf, hage] at hafter
  exact ⟨hhit, hhits, hmisses, hafter⟩

/-! ### A miss in a full set (R187) -/

theorem validRanks_of_full {ws : List Way} (hv : ws.all Way.valid = true) : validRanks ws = ws.map Way.rank := by
  rw [validRanks, List.filter_eq_self.2 (List.all_eq_true.1 hv)]

/-- In a full set exactly one way is the oldest (R191). -/
theorem exists_unique_oldest {ws : List Way} (h : LruRanks ws) (hv : ws.all Way.valid = true) (hpos : 1 ≤ ws.length) :
    ∃ v ∈ ws, v.rank = ws.length ∧ ∀ u ∈ ws, u.rank = ws.length → u = v := by
  have hcount : ws.countP Way.valid = ws.length := List.countP_eq_length.2 (List.all_eq_true.1 hv)
  have hnodup : (ws.map Way.rank).Nodup := validRanks_of_full hv ▸ h.nodup
  have hmem : ws.length ∈ ws.map Way.rank := by
    rw [← validRanks_of_full hv, h.mem_iff, hcount, List.mem_range'_1]
    omega
  obtain ⟨v, hvmem, hvrank⟩ := List.mem_map.1 hmem
  exact ⟨v, hvmem, hvrank, fun u hu hurank =>
    List.inj_on_of_nodup_map hnodup hu hvmem (hurank.trans hvrank.symm)⟩

/-- `evict` gives the tag to the one way at rank `n`. -/
theorem evict_eq_map {n t : Nat} {ws : List Way} {v : Way} (hv : v.rank = n) (huniq : ∀ u ∈ ws, u.rank = n → u = v) :
    evict n t ws = ws.map fun w => { w with tag := if w = v then t else w.tag, rank := w.rank % n + 1 } := by
  refine List.map_congr_left fun w hw => ?_
  have hiff : w.rank = n ↔ w = v := ⟨huniq w hw, fun h => h ▸ hv⟩
  simp only [hiff]

theorem one_le_ways {c : CacheConfig} (h : validConfig c = true) : 1 ≤ c.ways := by
  simp only [validConfig, Bool.and_eq_true, decide_eq_true_eq] at h
  exact h.1.1

/-- Settles O39: the set is full, so the lookup evicts, and the way it evicts is the one at rank `ways`
(`exists_unique_oldest`). -/
theorem missInFullSetEvictsTheOldest : Obligations.MissInFullSetEvictsTheOldest := by
  intro c a x hok _ (hfull : (c.setOf a).all Way.valid = true) hmiss
  have hset : SetOk c.cfg (c.setOf a) := setOk_setOf hok a
  obtain ⟨v, hvmem, hvrank, huniq⟩ :=
    exists_unique_oldest hset.ranks hfull (hset.ways ▸ one_le_ways hok.config)
  rw [hset.ways] at hvrank huniq
  obtain ⟨hhit, hhits, hmisses, hafter⟩ := access_of_accessSet hok x (accessSet_miss hmiss)
  rw [if_pos hfull] at hafter
  exact ⟨v, hvmem, hvrank, huniq, hhit, hhits, hmisses, hafter.trans (evict_eq_map hvrank huniq)⟩

/-! ### One way (R193) -/

/-- With one way, every lookup leaves its tag in the way, at rank 1, whichever of the three cases it is. -/
theorem accessSet_oneWay {c : CacheConfig} {ws : List Way} (t : Nat) (h : SetOk c ws) (hone : c.ways = 1) :
    (accessSet c.ways t ws).2 = [⟨t, true, 1⟩] := by
  obtain ⟨w, rfl⟩ := List.length_eq_one_iff.1 (h.ways.trans hone)
  rw [hone]
  rcases accessSet_cases 1 t [w] with ⟨m, hm, he⟩ | ⟨-, hfree, he⟩ | ⟨-, hfull, he⟩ <;> rw [he]
  case inl =>
    obtain rfl : m = w := List.mem_singleton.1 (List.mem_of_find?_eq_some hm)
    have hw : m.holds t = true := List.find?_some hm
    obtain ⟨hv, rfl⟩ := holds_iff.1 hw
    simp [promote, hw, hv]
  case inr.inl =>
    have hv : w.valid = false := by simpa using hfree
    simp [fill, hv]
  case inr.inr =>
    have hv : w.valid = true := by simpa using hfull
    obtain ⟨u, hu, hrank, -⟩ := exists_unique_oldest h.ranks hfull le_rfl
    obtain rfl : u = w := List.mem_singleton.1 hu
    simp [evict, hv, show u.rank = 1 from hrank]

theorem setOf_access_oneWay {c : Cache} (h : CacheOk c) (hone : c.cfg.ways = 1) {a b : Word} (x : Bool)
    (hi : setIndex c.cfg a = setIndex c.cfg b) : (c.access a x).2.setOf b = [⟨tagOf c.cfg a, true, 1⟩] :=
  (setOf_access h x hi).trans (accessSet_oneWay _ (setOk_setOf h a) hone)

/-- With one way, of the blocks of a set the one just accessed is resident and no other. -/
theorem resident_access_oneWay {c : Cache} (h : CacheOk c) (hone : c.cfg.ways = 1) {a b : Word} (x : Bool)
    (hi : setIndex c.cfg a = setIndex c.cfg b) :
    (c.access a x).2.resident b = true ↔ tagOf c.cfg a = tagOf c.cfg b := by
  simp [resident_eq, setOf_access_oneWay h hone x hi, holds_iff]

/-- Settles O40: a lookup hits exactly the resident block (`access_fst`), and that is the one just accessed, alone in
its set at rank 1. -/
theorem directMappedConflictMisses : Obligations.DirectMappedConflictMisses := by
  intro c a b x y hok hone
  refine ⟨fun hi htag => ?conflict, ?again, ?rank⟩
  case conflict =>
    rw [access_fst, Bool.eq_false_iff]
    exact fun hres => htag ((resident_access_oneWay hok hone x hi).1 hres)
  case again =>
    rw [access_fst]
    exact (resident_access_oneWay hok hone x rfl).2 rfl
  case rank =>
    have halone : (c.access a x).2.setOf a = [⟨tagOf c.cfg a, true, 1⟩] := setOf_access_oneWay hok hone x rfl
    exact fun w hw => congrArg Way.rank (List.mem_singleton.1 (halone.subst (motive := (w ∈ ·)) hw))

end Sys2Proof.Machine

/-! PROOFS. 44_pipeline_engine: the shape that the counters choose and the cycle of each shape as one equation (R210,
R211); the whole effect of the cycles that fetch nothing (R212 to R215, R217); the hazards of the fetching cycle (R223 to
R225); and the transition against the pseudocode of R237. -/

namespace Sys2Proof.Machine

/-! ### The shape of a cycle (R210, R213) -/

theorem activeStall_iMiss {t : StallState} : activeStall t = some .iMiss ↔ t.iMiss ≠ 0 := by
  unfold activeStall; split_ifs <;> simp_all

theorem activeStall_dMiss {t : StallState} : activeStall t = some .dMiss ↔ t.iMiss = 0 ∧ t.dMiss ≠ 0 := by
  unfold activeStall; split_ifs <;> simp_all

theorem activeStall_decHaz {t : StallState} :
    activeStall t = some .decHaz ↔ t.iMiss = 0 ∧ t.dMiss = 0 ∧ t.decHaz ≠ 0 := by
  unfold activeStall; split_ifs <;> simp_all

theorem activeStall_exHaz {t : StallState} :
    activeStall t = some .exHaz ↔ t.iMiss = 0 ∧ t.dMiss = 0 ∧ t.decHaz = 0 ∧ t.exHaz ≠ 0 := by
  unfold activeStall; split_ifs <;> simp_all

theorem exists_activeStall {t : StallState} (h : t ≠ ⟨0, 0, 0, 0⟩) : ∃ c, activeStall t = some c :=
  Option.ne_none_iff_exists'.1 (mt activeStall_none.1 h)

theorem shapeOf_stall {s : State} {c : StallKind} :
    shapeOf s = .stall c ↔ s.flush = 0 ∧ activeStall s.stall = some c := by
  unfold shapeOf
  by_cases hf : s.flush = 0
  · cases activeStall s.stall <;> cases s.halted <;> simp [hf]
  · simp [hf]

theorem shapeOf_fetch {s : State} (hf : s.flush = 0) (hs : s.stall = ⟨0, 0, 0, 0⟩) (hh : s.halted = false) :
    shapeOf s = .fetch := by
  simpa [hh] using shapeOf_normal.2 ⟨hf, hs⟩

theorem shapeOf_drain {s : State} (hf : s.flush = 0) (hs : s.stall = ⟨0, 0, 0, 0⟩) (hh : s.halted = true) :
    shapeOf s = .drain := by
  simpa [hh] using shapeOf_normal.2 ⟨hf, hs⟩

/-! ### The cycle of each shape, for every classifier (R94, R210, R211) -/

theorem cycleWith_of_ended {s : State} (K : Classifier) (h : s.status ≠ .running) : cycleWith K s = s := by
  cases hr : s.status with
  | running => exact absurd hr h
  | halt => simp [cycleWith, hr]
  | error => simp [cycleWith, hr]

theorem cycleWith_flush {s : State} (K : Classifier) (hr : s.status = .running) (hs : shapeOf s = .flush) :
    cycleWith K s = flushCycle K s := by
  simp [cycleWith, hr, hs]

theorem cycleWith_stall {s : State} {c : StallKind} (K : Classifier) (hr : s.status = .running)
    (hs : shapeOf s = .stall c) : cycleWith K s = stallCycle K c s := by
  simp [cycleWith, hr, hs]

theorem cycleWith_drain {s : State} (K : Classifier) (hr : s.status = .running) (hs : shapeOf s = .drain) :
    cycleWith K s = drainCycle K s := by
  simp [cycleWith, hr, hs]

theorem cycleWith_record {s : State} {r : Record} (K : Classifier) (hr : s.status = .running)
    (hs : shapeOf s = .fetch) (hn : s.nextResponse = .record r) :
    cycleWith K s = fetchCycle K (Fetched.ofWord K r.word) r s := by
  simp [cycleWith, hr, hs, hn]

theorem cycleWith_outOfRange {s : State} (K : Classifier) (hr : s.status = .running)
    (hs : shapeOf s = .fetch) (hn : s.nextResponse = .outOfRange) : cycleWith K s = abortCycle s := by
  simp [cycleWith, hr, hs, hn]

/-! ### The same for `step` -/

theorem step_of_ended {s : State} (h : s.status ≠ .running) : step s = .next s := by
  cases hr : s.status with
  | running => exact absurd hr h
  | halt => simp [step, hr]
  | error => simp [step, hr]

theorem step_flush {s : State} (hr : s.status = .running) (hs : shapeOf s = .flush) :
    step s = .next (flushCycle Classifier.mips s) := by
  simp [step, hr, hs]

theorem step_stall {s : State} {c : StallKind} (hr : s.status = .running) (hs : shapeOf s = .stall c) :
    step s = .next (stallCycle Classifier.mips c s) := by
  simp [step, hr, hs]

theorem step_outOfRange {s : State} (hr : s.status = .running) (hs : shapeOf s = .fetch)
    (hn : s.nextResponse = .outOfRange) : step s = .next (abortCycle s) := by
  simp [step, hr, hs, stepFetch, hn]

/-! ### The moves and the accounting as one record update each -/

theorem Pipe.hold_eq {α : Type} (b : BubbleStage) (e : α) (p : Pipe α) :
    p.hold b e =
      if b = .execute then ⟨p.fetch, p.decode, e, p.execute, p.memory⟩
      else ⟨p.fetch, e, p.decode, p.execute, p.memory⟩ := by
  cases b <;> rfl

/-- The whole of `drainOne` (R232). -/
theorem drainOne_eq (s : State) : drainOne s = { s with
    drain := if s.halted then s.drain - 1 else s.drain
    status := if s.halted ∧ s.drain - 1 = 0 then .halt else s.status } := by
  unfold drainOne
  split
  next hh => simp [hh]
  next hh => rw [if_neg fun h => hh h.1]

/-- The stall counters when a data miss of `n` cycles is added and one unit of the active counter is served
(R213, R230). A unit of `dMiss` is taken from what was there before the miss. -/
theorem serve_of_activeStall {t : StallState} {c : StallKind} (h : activeStall t = some c) (n : Nat) :
    StallState.serve c { t with dMiss := t.dMiss + n } =
      if t.iMiss ≠ 0 then ⟨t.iMiss - 1, t.dMiss + n, t.decHaz, t.exHaz⟩
      else if t.dMiss ≠ 0 then ⟨t.iMiss, t.dMiss - 1 + n, t.decHaz, t.exHaz⟩
      else if t.decHaz ≠ 0 then ⟨t.iMiss, t.dMiss + n, t.decHaz - 1, t.exHaz⟩
      else ⟨t.iMiss, t.dMiss + n, t.decHaz, t.exHaz - 1⟩ := by
  cases c with
  | iMiss => simp [StallState.serve, activeStall_iMiss.1 h]
  | dMiss =>
    obtain ⟨hi, hd⟩ := activeStall_dMiss.1 h
    simp [StallState.serve, hi, hd, Nat.sub_add_comm (Nat.one_le_iff_ne_zero.2 hd)]
  | decHaz =>
    obtain ⟨hi, hd, hc⟩ := activeStall_decHaz.1 h
    simp [StallState.serve, hi, hd, hc]
  | exHaz =>
    obtain ⟨hi, hd, hc, -⟩ := activeStall_exHaz.1 h
    simp [StallState.serve, hi, hd, hc]

/-- The statistic of the active counter (R213). -/
theorem countStall_of_activeStall {t : StallState} {c : StallKind} (h : activeStall t = some c) (st : Stats) :
    st.countStall c =
      if t.iMiss ≠ 0 then { st with stallIMiss := st.stallIMiss + 1 }
      else if t.dMiss ≠ 0 then { st with stallDMiss := st.stallDMiss + 1 }
      else if t.decHaz ≠ 0 then { st with stallDec := st.stallDec + 1 }
      else { st with stallEx := st.stallEx + 1 } := by
  cases c with
  | iMiss => simp [Stats.countStall, activeStall_iMiss.1 h]
  | dMiss => simp [Stats.countStall, activeStall_dMiss.1 h]
  | decHaz => simp [Stats.countStall, activeStall_decHaz.1 h]
  | exHaz => simp [Stats.countStall, activeStall_exHaz.1 h]

/-- The whole of `detectHazard` (R222, R230). -/
theorem detectHazard_eq (K : Classifier) (f : Fetched) (s : State) :
    detectHazard K f s = { s with
      stall :=
        { s.stall with
          exHaz := s.stall.exHaz + exHazardCycles K f.kind f.srcRegs s.slot.decode
          decHaz := s.stall.decHaz +
            decHazardCycles K s.params.execLoadBranchStall f.kind f.srcRegs s.slot.decode s.slot.execute } } := by
  rw [← detectHazard_stall]; rfl

/-- The freeze condition of a stall cycle, in the counters (R213, R215). -/
theorem freeze_iff {s : State} {c : StallKind} (h : activeStall s.stall = some c) :
    (c = .dMiss ∧ s.dMissInMem = true) ↔ s.stall.iMiss = 0 ∧ s.stall.dMiss ≠ 0 ∧ s.dMissInMem = true := by
  rw [← and_assoc, ← activeStall_dMiss, h, Option.some_inj]

/-! ### The cycles that fetch nothing -/

/-- Settles O14: a flush cycle, with what enters Memory (`enterMemory_eq`) and the drain (`drainOne_eq`) written out. -/
theorem flushCycleInjectsBubble : Obligations.FlushCycleInjectsBubble := by
  intro s hr hf
  rw [step_flush hr (shapeOf_flush.2 hf), flushCycle, drainOne_eq, enterMemory_eq]
  simp [finishCycle, serveFlush, shiftAll, Pipe.shift, hr]

/-- Settles O15: the active counter decides the unit served and the statistic; the freeze is shut out by `freeze_iff`. -/
theorem regularStallHoldsFetchAndServesOneUnit : Obligations.RegularStallHoldsFetchAndServesOneUnit := by
  intro s hr hf hs hfreeze
  obtain ⟨c, hc⟩ := exists_activeStall hs
  rw [step_stall hr (shapeOf_stall.2 ⟨hf, hc⟩), stallCycle, if_neg (mt (freeze_iff hc).1 hfreeze), enterMemory_eq]
  simp only [← Pipe.hold_eq, ← serve_of_activeStall hc, ← countStall_of_activeStall hc]
  simp [finishCycle, serveStall, holdFetch]

/-- Settles O16: the active counter is `dMiss` and the freeze condition holds. -/
theorem dataMissFreezeClearsWritebackOnly : Obligations.DataMissFreezeClearsWritebackOnly := by
  intro s hr hf hi hd hm
  have hc : activeStall s.stall = some .dMiss := activeStall_dMiss.2 ⟨hi, hd⟩
  rw [step_stall hr (shapeOf_stall.2 ⟨hf, hc⟩), stallCycle, if_pos ⟨rfl, hm⟩]
  rfl

/-- Settles O11, by `step_of_ended`. -/
theorem requestAfterTheEndChangesNothing : Obligations.RequestAfterTheEndChangesNothing := by
  intro s h
  exact step_of_ended (by rcases h with h | h <;> simp [h])

/-- Settles O18: the step is the abort, after which the status is Error and `step_of_ended` applies. -/
theorem outOfRangeReportAbortsTheRun : Obligations.OutOfRangeReportAbortsTheRun := by
  intro s hr hh hf hs hn
  exact ⟨abortCycle s, step_outOfRange hr (shapeOf_fetch hf hs hh) hn, rfl, step_of_ended (by simp)⟩

/-! ### The hazards of a fetching cycle, for every classifier -/

/-- With the OPEN rule R227 off, only the slot behind the new instruction decides (R224). -/
theorem decHazardCycles_off (K : Classifier) (k : OpKind) (srcs : List RegNum) (dec exe : Slot) :
    decHazardCycles K 0 k srcs dec exe =
      if k = .branch ∧ producerIn K arithmeticKinds srcs dec then 0
      else if k = .branch ∧ producerIn K [.load] srcs dec then 2
      else 0 := by
  rw [decHazardCycles, ite_self]

theorem fetchCycle_exHaz (K : Classifier) (f : Fetched) (r : Record) (s : State) :
    (fetchCycle K f r s).stall.exHaz = s.stall.exHaz + exHazardCycles K f.kind f.srcRegs s.slot.fetch := by
  simp [fetchCycle]

theorem fetchCycle_decHaz (K : Classifier) (f : Fetched) (r : Record) (s : State) :
    (fetchCycle K f r s).stall.decHaz = s.stall.decHaz +
      decHazardCycles K s.params.execLoadBranchStall f.kind f.srcRegs s.slot.fetch s.slot.decode := by
  simp [fetchCycle]

/-- In a fetching normal cycle the hazard counters become what the slots before the shift decide (R222, R230). -/
theorem cycleWith_hazards {s : State} {r : Record} (K : Classifier) (hr : s.status = .running)
    (hh : s.halted = false) (hf : s.flush = 0) (hs : s.stall = ⟨0, 0, 0, 0⟩) (hn : s.nextResponse = .record r) :
    (cycleWith K s).stall.exHaz = exHazardCycles K (K.classify r.word) (K.srcRegs r.word) s.slot.fetch ∧
    (cycleWith K s).stall.decHaz = decHazardCycles K s.params.execLoadBranchStall (K.classify r.word)
      (K.srcRegs r.word) s.slot.fetch s.slot.decode := by
  rw [cycleWith_record K hr (shapeOf_fetch hf hs hh) hn, fetchCycle_exHaz, fetchCycle_decHaz, hs]
  simp [Fetched.ofWord]

/-- A word whose destination is a source is a producer exactly by its kind. -/
theorem producerIn_of_match {K : Classifier} {wd : Word} {d : RegNum} {srcs : List RegNum}
    (hd : K.destReg wd = some d) (hm : d ∈ srcs) (ks : List OpKind) :
    producerIn K ks srcs (.instr wd) = ks.contains (K.classify wd) := by
  simp [producerIn, hd, hm]

/-- Settles O29: the arithmetic word in Decode is a producer, so R223 fires and R224 cannot. -/
theorem opBranchStallsOneCycle : Obligations.OpBranchStallsOneCycle := by
  intro K s r wd d hr hh hf hs hn hslot hbranch harith hd hm
  obtain ⟨hex, hdec⟩ := cycleWith_hazards K hr hh hf hs hn
  have hproducer : producerIn K arithmeticKinds (K.srcRegs r.word) (.instr wd) = true := by
    simpa [producerIn_of_match hd hm, arithmeticKinds] using harith
  rw [hex, hdec, hslot]
  simp [exHazardCycles, decHazardCycles, hbranch, hproducer]

/-- Settles O30: the load in Decode is a producer but no arithmetic one, and a branch is no arithmetic consumer. -/
theorem loadBranchStallsTwoCycles : Obligations.LoadBranchStallsTwoCycles := by
  intro K s r wd d hr hh hf hs hn hslot hbranch hload hd hm
  obtain ⟨hex, hdec⟩ := cycleWith_hazards K hr hh hf hs hn
  have hconsumer : OpKind.branch ∉ arithmeticKinds := by decide
  have hnoOp : producerIn K arithmeticKinds (K.srcRegs r.word) (.instr wd) = false := by
    simp [producerIn_of_match hd hm, arithmeticKinds, hload]
  have hproducer : producerIn K [.load] (K.srcRegs r.word) (.instr wd) = true := by
    simp [producerIn_of_match hd hm, hload]
  rw [hex, hdec, hslot]
  simp [exHazardCycles, decHazardCycles, hbranch, hconsumer, hnoOp, hproducer]

/-- Settles O31: the consumer is arithmetic and so no branch, and the load in Decode is a producer. -/
theorem loadOpStallsOneCycle : Obligations.LoadOpStallsOneCycle := by
  intro K s r wd d hr hh hf hs hn hslot harith hload hd hm
  obtain ⟨hex, hdec⟩ := cycleWith_hazards K hr hh hf hs hn
  have hnoBranch : K.classify r.word ≠ .branch := by rcases harith with h | h <;> simp [h]
  have hconsumer : K.classify r.word ∈ arithmeticKinds := by simpa [arithmeticKinds] using harith
  have hproducer : producerIn K [.load] (K.srcRegs r.word) (.instr wd) = true := by
    simp [producerIn_of_match hd hm, hload]
  rw [hex, hdec, hslot]
  simp [exHazardCycles, decHazardCycles, hnoBranch, hconsumer, hproducer]

/-! ### The pseudocode of R237, part by part -/

namespace Reference

theorem shiftAll_eq (n : Slot) (a : Touched) (s : State) : shiftAll n a s = Machine.shiftAll n a s := rfl

theorem enterMemory_eq (K : Classifier) (s : State) : enterMemory K s = Machine.enterMemory K s := by
  rw [Machine.enterMemory_eq]
  unfold enterMemory entering
  cases s.slot.memory with
  | bubble => simp
  | instr w =>
    cases s.hist.memory with
    | noAddr => simp
    | addr a =>
      by_cases hm : K.classify w = .load ∨ K.classify w = .store
      · have hw : (K.classify w == .store) = decide (K.classify w = .store) := rfl
        cases hhit : (s.dcache.access a (K.classify w == .store)).1 <;> simp [hm, ← hw, hhit]
      · simp [hm]

theorem flushPart_eq (K : Classifier) (s : State) :
    flushPart K s = serveFlush (Machine.enterMemory K (Machine.shiftAll .bubble .noAddr s)) := by
  rw [flushPart, shiftAll_eq, enterMemory_eq]; rfl

/-- The movement of R214 with the default STALL_BUBBLE_STAGE. -/
theorem holdFetch_of_default {s : State} (hp : s.params = {}) : holdFetch s = { s with
    slot := ⟨s.slot.fetch, s.slot.decode, .bubble, s.slot.execute, s.slot.memory⟩
    hist := ⟨s.hist.fetch, s.hist.decode, .noAddr, s.hist.execute, s.hist.memory⟩
    dMissInMem := false } := by
  simp [holdFetch, Pipe.hold, hp]

/-- The stall cycle of R237 serves the active counter, and moves as R214 and R215 say. -/
theorem stallPart_eq {s : State} {c : StallKind} (K : Classifier) (hp : s.params = {})
    (h : activeStall s.stall = some c) :
    stallPart K s = serveStall c
      (if c = .dMiss ∧ s.dMissInMem then freezeMemory s else Machine.enterMemory K (holdFetch s)) := by
  rw [if_congr (freeze_iff h) rfl rfl, holdFetch_of_default hp, ← enterMemory_eq, stallPart]
  simp only [Nat.pos_iff_ne_zero]
  cases c with
  | iMiss => rw [if_pos (activeStall_iMiss.1 h)]; rfl
  | dMiss =>
    obtain ⟨hi, hd⟩ := activeStall_dMiss.1 h
    rw [if_neg (not_not.2 hi), if_pos hd]; rfl
  | decHaz =>
    obtain ⟨hi, hd, hc⟩ := activeStall_decHaz.1 h
    rw [if_neg (not_not.2 hi), if_neg (not_not.2 hd), if_pos hc]; rfl
  | exHaz =>
    obtain ⟨hi, hd, hc, -⟩ := activeStall_exHaz.1 h
    rw [if_neg (not_not.2 hi), if_neg (not_not.2 hd), if_neg (not_not.2 hc)]; rfl

theorem flagLines_eq (r : Record) (s : State) : flagLines r s = applyFlags r s := by
  unfold flagLines applyFlags recordFault
  cases r.halt <;> cases r.valid <;> cases r.overflow <;> rfl

theorem lookupLine_eq (pc : Word) (s : State) : lookupLine pc s = lookupFetch pc s := rfl

theorem producerIn_arithmeticKinds_iff {K : Classifier} {srcs : List RegNum} {wd : Word} :
    producerIn K arithmeticKinds srcs (.instr wd) = true ↔
      isArith (K.classify wd) ∧ (K.destReg wd).any srcs.contains = true := by
  simp [producerIn, arithmeticKinds]

theorem producerIn_load_iff {K : Classifier} {srcs : List RegNum} {wd : Word} :
    producerIn K [.load] srcs (.instr wd) = true ↔
      K.classify wd = .load ∧ (K.destReg wd).any srcs.contains = true := by
  simp [producerIn]

theorem mem_arithmeticKinds {k : OpKind} : k ∈ arithmeticKinds ↔ isArith k := by simp [arithmeticKinds]

/-- The rules R223 to R225 are the hazard detection, the OPEN rule R227 being off. -/
theorem hazardLines_eq (K : Classifier) (w : Word) {s : State} (hp : s.params = {}) :
    hazardLines K w s = detectHazard K (Fetched.ofWord K w) s := by
  have hoff : s.params.execLoadBranchStall = 0 := by rw [hp]
  rw [detectHazard_eq, hoff, decHazardCycles_off]
  unfold hazardLines exHazardCycles
  cases s.slot.decode with
  | bubble => simp [producerIn]
  | instr wd =>
    simp only [producerIn_arithmeticKinds_iff, producerIn_load_iff, mem_arithmeticKinds, Fetched.ofWord]
    by_cases hop : K.classify w = .branch ∧ isArith (K.classify wd) ∧
        (K.destReg wd).any (K.srcRegs w).contains = true
    · simp only [if_pos hop]; rfl
    · by_cases hlb : K.classify w = .branch ∧ K.classify wd = .load ∧
          (K.destReg wd).any (K.srcRegs w).contains = true
      · have hbranch : ¬ isArith (K.classify w) := by simp [hlb.1]
        simp only [if_neg hop, if_pos hlb, hbranch, false_and, if_false]; rfl
      · simp only [if_neg hop, if_neg hlb]
        split <;> rfl

theorem recordPart_eq (K : Classifier) (r : Record) {s : State} (hp : s.params = {}) :
    finishCycle (recordPart K r s.callExecutor) = fetchCycle K (Fetched.ofWord K r.word) r s := by
  rw [recordPart]
  simp only [enterMemory_eq, lookupLine_eq, flagLines_eq]
  rw [hazardLines_eq _ _ (by simp [shiftAll_eq, hp]), ← pushedAddr_eq]
  rfl

/-- The end of a cycle that put a Bubble into Fetch does the halt accounting (R232). -/
theorem endPart_bubble {s : State} {b : Bool} (hb : s.halted = b) : endPart b true s = finishCycle (drainOne s) := by
  rw [drainOne_eq]
  unfold endPart
  cases b <;> by_cases hd : s.drain - 1 = 0 <;> simp [finishCycle, hd, hb]

theorem endPart_noBubble (b : Bool) (s : State) : endPart b false s = finishCycle s := by
  cases b <;> rfl

end Reference

theorem stall_pending_iff (t : StallState) :
    (t.iMiss > 0 ∨ t.dMiss > 0 ∨ t.decHaz > 0 ∨ t.exHaz > 0) ↔ t ≠ ⟨0, 0, 0, 0⟩ := by
  rcases t with ⟨i, d, c, x⟩
  simp only [ne_eq, StallState.mk.injEq]
  omega

/-- Settles O10: in the order of the pseudocode's tests, each branch is the cycle of the shape chosen. -/
theorem transitionIsThePseudocode : Obligations.TransitionIsThePseudocode := by
  intro K s hp
  unfold Reference.cycle
  simp only [stall_pending_iff]
  by_cases hrunning : s.status = .running
  case neg => rw [if_pos hrunning, cycleWith_of_ended K hrunning]
  rw [if_neg (not_not.2 hrunning)]
  by_cases hflush : s.flush = 0
  case neg =>
    rw [if_pos (Nat.pos_of_ne_zero hflush), cycleWith_flush K hrunning (shapeOf_flush.2 hflush), Reference.flushPart_eq,
      Reference.endPart_bubble (by simp), flushCycle]
  rw [if_neg hflush.not_gt]
  by_cases hstall : s.stall = ⟨0, 0, 0, 0⟩
  case neg =>
    obtain ⟨c, hc⟩ := exists_activeStall hstall
    rw [if_pos hstall, cycleWith_stall K hrunning (shapeOf_stall.2 ⟨hflush, hc⟩), Reference.stallPart_eq K hp hc,
      Reference.endPart_noBubble, stallCycle]
  rw [if_neg (not_not.2 hstall)]
  by_cases hhalted : s.halted = true
  case pos =>
    rw [if_pos hhalted, cycleWith_drain K hrunning (shapeOf_drain hflush hstall hhalted), Reference.shiftAll_eq,
      Reference.enterMemory_eq, Reference.endPart_bubble (by simp [hhalted]), drainCycle]
  have hfetch := shapeOf_fetch hflush hstall (Bool.eq_false_iff.2 hhalted)
  rw [if_neg hhalted]
  cases hresp : s.nextResponse with
  | outOfRange => rw [cycleWith_outOfRange K hrunning hfetch hresp]; rfl
  | record r =>
    rw [cycleWith_record K hrunning hfetch hresp, ← Reference.recordPart_eq K r hp]
    exact (Reference.endPart_noBubble _ _).symm

end Sys2Proof.Machine

/-! PROOFS. 45_statistics: every operation of a cycle leaves the eleven statistics as they are or raises them (R271),
so no cycle and no step lowers one (R272). -/

namespace Sys2Proof.Machine

/-! ### The statistics in the order of R270, compared counter by counter -/

/-- The fields of the statistics record as a tuple: its `≤` is the one of every counter (`counters_le_iff`). -/
def Statistics.counters (n : Statistics) : Nat × Nat × Nat × Nat × Nat × Nat × Nat × Nat × Nat × Nat × Nat :=
  (n.dynInstr, n.cycles, n.icHits, n.icMisses, n.dcHits, n.dcMisses, n.stallIMiss, n.stallDMiss, n.stallDec,
    n.stallEx, n.flushCycles)

theorem counters_le_iff (n m : Statistics) : n.counters ≤ m.counters ↔
    n.dynInstr ≤ m.dynInstr ∧ n.cycles ≤ m.cycles ∧ n.icHits ≤ m.icHits ∧ n.icMisses ≤ m.icMisses ∧
    n.dcHits ≤ m.dcHits ∧ n.dcMisses ≤ m.dcMisses ∧ n.stallIMiss ≤ m.stallIMiss ∧ n.stallDMiss ≤ m.stallDMiss ∧
    n.stallDec ≤ m.stallDec ∧ n.stallEx ≤ m.stallEx ∧ n.flushCycles ≤ m.flushCycles := Iff.rfl

/-! ### What leaves them as they are -/

@[simp] theorem shiftAll_statistics (n : Slot) (a : Touched) (s : State) :
    (shiftAll n a s).statistics = s.statistics := rfl
@[simp] theorem freezeMemory_statistics (s : State) : (freezeMemory s).statistics = s.statistics := rfl
@[simp] theorem detectHazard_statistics (K : Classifier) (f : Fetched) (s : State) :
    (detectHazard K f s).statistics = s.statistics := rfl
@[simp] theorem applyFlags_statistics (r : Record) (s : State) : (applyFlags r s).statistics = s.statistics := by
  simp [State.statistics]
@[simp] theorem drainOne_statistics (s : State) : (drainOne s).statistics = s.statistics := by
  simp [State.statistics]
@[simp] theorem abortCycle_statistics (s : State) : (abortCycle s).statistics = s.statistics := rfl

/-! ### What raises them (R271) -/

theorem access_raises (c : Cache) (a : Word) (b : Bool) :
    c.hits ≤ (c.access a b).2.hits ∧ c.misses ≤ (c.access a b).2.misses := by
  obtain ⟨hhits, hmisses⟩ := access_counters c a b
  exact ⟨hhits ▸ Nat.le_add_right _ _, hmisses ▸ Nat.le_add_right _ _⟩

/-- What enters Memory is looked up or not; either way no counter of the data cache is lowered (R229). -/
theorem entering_raises (K : Classifier) (c : Cache) (p : Slot) (ad : Touched) :
    c.hits ≤ (entering K c p ad).1.hits ∧ c.misses ≤ (entering K c p ad).1.misses := by
  rcases entering_cases K c p ad with ⟨h, -⟩ | ⟨w, a, -, -, -, -, h⟩ | ⟨w, a, -, -, -, -, h⟩ <;> rw [h]
  case inl => exact ⟨le_rfl, le_rfl⟩
  case inr.inl => exact access_raises c a (K.classify w).isStore
  case inr.inr => exact access_raises c a (K.classify w).isStore

theorem counters_le_enterMemory (K : Classifier) (s : State) :
    s.statistics.counters ≤ (enterMemory K s).statistics.counters := by
  rw [enterMemory_eq, counters_le_iff]
  simp [State.statistics, entering_raises]

theorem counters_le_lookupFetch (pc : Word) (s : State) :
    s.statistics.counters ≤ (lookupFetch pc s).statistics.counters := by
  rw [counters_le_iff]
  simp [State.statistics, access_raises]

theorem counters_le_serveFlush (s : State) : s.statistics.counters ≤ (serveFlush s).statistics.counters := by
  rw [counters_le_iff]
  simp [State.statistics]

theorem counters_le_serveStall (c : StallKind) (s : State) :
    s.statistics.counters ≤ (serveStall c s).statistics.counters := by
  rw [counters_le_iff]
  cases c <;> simp [State.statistics, Stats.countStall]

theorem counters_le_countInstr (s : State) : s.statistics.counters ≤ (countInstr s).statistics.counters := by
  rw [counters_le_iff]
  simp [State.statistics]

theorem counters_le_finishCycle (s : State) : s.statistics.counters ≤ (finishCycle s).statistics.counters := by
  rw [counters_le_iff]
  simp [State.statistics]

/-! ### The whole cycles, operation by operation -/

theorem counters_le_enterMemory_shiftAll (K : Classifier) (n : Slot) (a : Touched) (s : State) :
    s.statistics.counters ≤ (enterMemory K (shiftAll n a s)).statistics.counters :=
  counters_le_enterMemory K (shiftAll n a s)

theorem counters_le_flushCycle (K : Classifier) (s : State) :
    s.statistics.counters ≤ (flushCycle K s).statistics.counters := by
  calc s.statistics.counters
    _ ≤ (enterMemory K (shiftAll .bubble .noAddr s)).statistics.counters := counters_le_enterMemory_shiftAll ..
    _ ≤ (serveFlush (enterMemory K (shiftAll .bubble .noAddr s))).statistics.counters := counters_le_serveFlush _
    _ = (drainOne (serveFlush (enterMemory K (shiftAll .bubble .noAddr s)))).statistics.counters := by
        rw [drainOne_statistics]
    _ ≤ (flushCycle K s).statistics.counters := counters_le_finishCycle _

/-- The freeze and the regular movement alike, then the active counter and the cycle are counted (R213 to R215). -/
theorem counters_le_stallCycle (K : Classifier) (c : StallKind) (s : State) :
    s.statistics.counters ≤ (stallCycle K c s).statistics.counters := by
  refine le_trans ?moved (le_trans (counters_le_serveStall c _) (counters_le_finishCycle _))
  split
  next => rw [freezeMemory_statistics]
  next => exact counters_le_enterMemory K (holdFetch s)

theorem counters_le_drainCycle (K : Classifier) (s : State) :
    s.statistics.counters ≤ (drainCycle K s).statistics.counters := by
  calc s.statistics.counters
    _ ≤ (enterMemory K (shiftAll .bubble .noAddr s)).statistics.counters := counters_le_enterMemory_shiftAll ..
    _ = (drainOne (enterMemory K (shiftAll .bubble .noAddr s))).statistics.counters := by rw [drainOne_statistics]
    _ ≤ (drainCycle K s).statistics.counters := counters_le_finishCycle _

/-- The two lookups of a fetching cycle and its end (R228, R229, R233). -/
theorem counters_le_lookups (K : Classifier) (pc : Word) (s : State) :
    s.statistics.counters ≤ (finishCycle (enterMemory K (lookupFetch pc s))).statistics.counters := by
  calc s.statistics.counters
    _ ≤ (lookupFetch pc s).statistics.counters := counters_le_lookupFetch pc s
    _ ≤ (enterMemory K (lookupFetch pc s)).statistics.counters := counters_le_enterMemory K _
    _ ≤ (finishCycle (enterMemory K (lookupFetch pc s))).statistics.counters := counters_le_finishCycle _

theorem counters_le_fetchCycle (K : Classifier) (f : Fetched) (r : Record) (s : State) :
    s.statistics.counters ≤ (fetchCycle K f r s).statistics.counters := by
  calc s.statistics.counters
    _ ≤ (countInstr s.callExecutor).statistics.counters := counters_le_countInstr s.callExecutor
    _ = (detectHazard K f (applyFlags r (shiftAll (.instr f.word) (pushedAddr f.kind r.addr)
          (countInstr s.callExecutor)))).statistics.counters := by
        rw [detectHazard_statistics, applyFlags_statistics, shiftAll_statistics]
    _ ≤ (fetchCycle K f r s).statistics.counters := counters_le_lookups K r.pc _

/-! ### The step -/

theorem counters_le_fetchAs {K : Classifier} {f : Fetched} {s t : State} (h : fetchAs K f s = .next t) :
    s.statistics.counters ≤ t.statistics.counters := by
  rcases fetchAs_cases K f s with ⟨r, -, he⟩ | ⟨-, he⟩ <;> cases he.symm.trans h
  case inl => exact counters_le_fetchCycle K f r s
  case inr => rw [abortCycle_statistics]

/-- The abort, or the shared fetching cycle of a decoded instruction or of an Illegal word (R216, R217). -/
theorem counters_le_stepFetch {s t : State} (h : stepFetch s = .next t) :
    s.statistics.counters ≤ t.statistics.counters := by
  rcases stepFetch_cases s with ⟨-, he⟩ | ⟨r, i, -, -, he⟩ | ⟨r, e, -, -, he⟩ <;> rw [he] at h
  case inl => cases h; rw [abortCycle_statistics]
  case inr.inl => exact counters_le_fetchAs ((exec_eq_fetchAs i s).symm.trans h)
  case inr.inr => exact counters_le_fetchAs h

/-- Settles O53, by what a step can do (`step_cases`): each shape of cycle lowers no counter. -/
theorem statisticsNeverDecrease : Obligations.StatisticsNeverDecrease := by
  intro s t h
  refine (counters_le_iff s.statistics t.statistics).1 ?_
  rcases step_cases s with ⟨-, he⟩ | ⟨-, -, he⟩ | ⟨c, -, -, he⟩ | ⟨-, -, he⟩ | ⟨-, -, he⟩ <;> rw [he] at h
  case inl => cases h; exact le_rfl
  case inr.inl => cases h; exact counters_le_flushCycle _ s
  case inr.inr.inl => cases h; exact counters_le_stallCycle _ c s
  case inr.inr.inr.inl => cases h; exact counters_le_drainCycle _ s
  case inr.inr.inr.inr => exact counters_le_stepFetch h

end Sys2Proof.Machine

/-! PROOFS. 70_reset_and_hazards: what the construction of the block leaves in the state and in each cache
(R311, R313; 10_state R41, R42, R43). -/

namespace Sys2Proof.Machine

/-! ### The construction, by the validity of its configurations -/

theorem construct_of_wellFormed {c : Setup} (h : c.wellFormed = true) :
    State.construct c = State.resetWith c.params (freshCache c.icfg) (freshCache c.dcfg) .running :=
  if_pos h

/-! ### A fresh cache -/

@[simp] theorem freshCache_cfg (c : CacheConfig) : (freshCache c).cfg = c := rfl
@[simp] theorem freshCache_hits (c : CacheConfig) : (freshCache c).hits = 0 := rfl
@[simp] theorem freshCache_misses (c : CacheConfig) : (freshCache c).misses = 0 := rfl

@[simp] theorem freshCache_sets_length (c : CacheConfig) : (freshCache c).sets.length = setCount c :=
  List.length_replicate

/-- Every set of a fresh cache is the same one: `ways` ways, all of them invalid (10_state R42). -/
theorem eq_replicate_of_mem_freshCache {c : CacheConfig} {ws : List Way} (h : ws ∈ (freshCache c).sets) :
    ws = List.replicate c.ways Way.invalid := List.eq_of_mem_replicate h

theorem freshCache_sets_invalid (c : CacheConfig) :
    ∀ ws ∈ (freshCache c).sets, ws.length = c.ways ∧ ∀ w ∈ ws, w = Way.invalid := by
  intro ws hws
  obtain rfl := eq_replicate_of_mem_freshCache hws
  exact ⟨List.length_replicate, fun w hw => List.eq_of_mem_replicate hw⟩

/-! ### The state after reset -/

/-- The slots and the history are empty in every stage (10_state R41). -/
theorem resetWith_stages_empty (p : Params) (ic dc : Cache) (x : Status) (st : Stage) :
    (State.resetWith p ic dc x).slot.get st = .bubble ∧ (State.resetWith p ic dc x).hist.get st = .noAddr :=
  ⟨Pipe.get_fill _ st, Pipe.get_fill _ st⟩

/-- Settles O43: with valid configurations the construction is `resetWith` around two fresh caches, whose stages are
empty by `resetWith_stages_empty` and whose sets are invalid by `freshCache_sets_invalid`; the other fields are its own
constants. -/
theorem resetLeavesEverythingEmpty : Obligations.ResetLeavesEverythingEmpty := by
  intro c hc
  rw [construct_of_wellFormed hc]
  exact ⟨resetWith_stages_empty _ _ _ _, rfl, rfl, rfl, rfl, rfl, rfl, rfl, rfl,
    freshCache_cfg _, freshCache_cfg _, freshCache_hits _, freshCache_misses _, freshCache_hits _, freshCache_misses _,
    freshCache_sets_length _, freshCache_sets_length _, freshCache_sets_invalid _, freshCache_sets_invalid _⟩

end Sys2Proof.Machine

/-! PROOFS. 30_encoding: decoder and encoder as inverses (R81, R82, R91), the Illegal words (R93) and the default
classifier (R94), from the facts on the encoding above. -/

namespace Sys2Proof

open Machine

/-- Settles O1, by `decode_encode`. -/
theorem decodeOfEncodeIsTheInstruction : Obligations.DecodeOfEncodeIsTheInstruction := decode_encode

/-- Settles O2, by `encode_of_decode`. -/
theorem encodeOfDecodedIsTheWord : Obligations.EncodeOfDecodedIsTheWord := fun _ _ => encode_of_decode

/-- Settles O5: the decoder evaluates on each word. -/
theorem sampleWordsDecode : Obligations.SampleWordsDecode := by
  unfold Obligations.SampleWordsDecode
  decide

/-! ### The Illegal words (R93) -/

/-- The decoder rejects exactly the words that are Illegal. -/
theorem classifyWord_illegal_iff (w : Word) : classifyWord w = .illegal ↔ ∃ e, decode w = .error e := by
  cases h : decode w with
  | ok i => cases i <;> simp [classifyWord, h, Instr.kind]
  | error e => simp [classifyWord, h]

/-- The opcode is listed in R92, the R format's 0 included. -/
def listedOpcodes : List (BitVec 6) :=
  [0x00#6, 0x02#6, 0x03#6, 0x04#6, 0x05#6, 0x06#6, 0x07#6, 0x08#6, 0x09#6, 0x0A#6, 0x0B#6, 0x0C#6, 0x0D#6, 0x0F#6,
    0x23#6, 0x24#6, 0x25#6, 0x28#6, 0x29#6, 0x2B#6]

/-- The functs listed in R92. -/
def listedFuncts : List (BitVec 6) :=
  [0x00#6, 0x02#6, 0x08#6, 0x20#6, 0x21#6, 0x22#6, 0x23#6, 0x24#6, 0x25#6, 0x27#6, 0x2A#6, 0x2B#6]

/-- The decoder rejects a word for its opcode, or for its funct under the opcode 0 (R91). -/
theorem decode_error_iff (w : Word) : (∃ e, decode w = .error e) ↔
    w ≠ haltWord ∧ ((opcode w = 0x00#6 ∧ funct w ∉ listedFuncts) ∨ opcode w ∉ listedOpcodes) := by
  unfold decode
  split
  next hhalt => simp [hhalt]
  next hne =>
    split
    next hop => split <;> simp_all [listedFuncts, listedOpcodes]
    all_goals simp_all [listedOpcodes]

/-- The opcodes that R92 does not list, as R93 lists them. -/
theorem not_listedOpcodes_iff (op : BitVec 6) : op ∉ listedOpcodes ↔
    op = 0x01#6 ∨ op = 0x0E#6 ∨ (0x10 ≤ op.toNat ∧ op.toNat ≤ 0x22) ∨ op = 0x26#6 ∨ op = 0x27#6 ∨ op = 0x2A#6 ∨
      0x2C ≤ op.toNat := by
  revert op
  decide

/-- Settles O3: an Illegal word is a rejected one (`decode_error_iff`), and R93 lists the opcodes R92 does not. -/
theorem illegalWordsAreThoseWithoutRow : Obligations.IllegalWordsAreThoseWithoutRow := by
  intro w
  rw [classifyWord_illegal_iff, decode_error_iff, not_listedOpcodes_iff]
  rfl

/-! ### The default classifier (R94) -/

theorem classifyWord_ne_bubble (w : Word) : classifyWord w ≠ .bubble := by
  obtain h | ⟨i, rfl⟩ := classifyWord_illegal_or_encode w
  · simp [h]
  · rw [classifyWord_encode]
    cases i <;> simp [Instr.kind]

theorem isSome_destRegWord_iff (w : Word) : (destRegWord w).isSome ↔
    classifyWord w = .arithmeticOp ∨ classifyWord w = .arithmeticImmediateOp ∨ classifyWord w = .load := by
  unfold destRegWord
  cases classifyWord w <;> simp

theorem kind_of_srcRegsWord_ne_nil {w : Word} (h : srcRegsWord w ≠ []) :
    classifyWord w = .branch ∨ classifyWord w = .arithmeticOp ∨ classifyWord w = .arithmeticImmediateOp := by
  unfold srcRegsWord at h
  cases hk : classifyWord w <;> simp_all

/-- Settles O7, one lemma per clause of R94. -/
theorem defaultClassifierIsLawful : Obligations.DefaultClassifierIsLawful where
  no_bubble := classifyWord_ne_bubble
  dest_iff := isSome_destRegWord_iff
  src_only := fun _ => kind_of_srcRegsWord_ne_nil

/-- Only the halt word is of kind Halt (R91, R92). -/
theorem eq_haltWord_of_kind {w : Word} (h : classifyWord w = .halt) : w = haltWord := by
  obtain hill | ⟨i, rfl⟩ := classifyWord_illegal_or_encode w
  · simp [hill] at h
  · rw [classifyWord_encode] at h
    cases i with
    | halt => rfl
    | _ => simp [Instr.kind] at h

end Sys2Proof

/-! PROOFS. 44_pipeline_engine: `step` is the transition of the engine with the default classifier (R94, R210), what
that transition can do, and what follows for single steps: the instruction that runs (R216), when the executor is read (R7),
the drain cycle (R232). -/

namespace Sys2Proof.Machine

/-! ### `step` is the transition (R94) -/

/-- What the meaning of the decoded instruction passes on is what the default classifier reads of the word. -/
theorem fetched_of_decode {w : Word} {i : Instr} (h : decode w = .ok i) :
    (⟨encode i, i.kind, sourcesOf i⟩ : Fetched) = Fetched.ofWord Classifier.mips w := by
  obtain rfl := encode_of_decode h
  simp [Fetched.ofWord, Classifier.mips, srcRegsWord_encode]

theorem fetched_of_illegal {w : Word} (h : classifyWord w = .illegal) :
    (⟨w, .illegal, []⟩ : Fetched) = Fetched.ofWord Classifier.mips w := by
  simp [Fetched.ofWord, Classifier.mips, h, srcRegsWord_of_illegal h]

theorem fetchAs_record {K : Classifier} {f : Fetched} {s : State} {r : Record} (hn : s.nextResponse = .record r) :
    fetchAs K f s = .next (fetchCycle K f r s) := by
  simp [fetchAs, hn]

theorem fetchAs_outOfRange {K : Classifier} {f : Fetched} {s : State} (hn : s.nextResponse = .outOfRange) :
    fetchAs K f s = .next (abortCycle s) := by
  simp [fetchAs, hn]

theorem step_fetch {s : State} (hr : s.status = .running) (hs : shapeOf s = .fetch) : step s = stepFetch s := by
  simp [step, hr, hs]

theorem step_drain {s : State} (hr : s.status = .running) (hs : shapeOf s = .drain) :
    step s = .next (drainCycle Classifier.mips s) := by
  simp [step, hr, hs]

theorem stepFetch_of_decode {s : State} {r : Record} {i : Instr} (hn : s.nextResponse = .record r)
    (hd : decode r.word = .ok i) : stepFetch s = exec i s := by
  simp [stepFetch, hn, hd]

theorem stepFetch_of_reject {s : State} {r : Record} {e : Reject} (hn : s.nextResponse = .record r)
    (hd : decode r.word = .error e) : stepFetch s = execIllegal r.word s := by
  simp [stepFetch, hn, hd]

theorem stepFetch_record {s : State} {r : Record} (hn : s.nextResponse = .record r) :
    stepFetch s = .next (fetchCycle Classifier.mips (Fetched.ofWord Classifier.mips r.word) r s) := by
  cases hd : decode r.word with
  | ok i => rw [stepFetch_of_decode hn hd, exec_eq_fetchAs, fetched_of_decode hd, fetchAs_record hn]
  | error e =>
    have hill : classifyWord r.word = .illegal := (classifyWord_illegal_iff _).2 ⟨e, hd⟩
    rw [stepFetch_of_reject hn hd, execIllegal, fetched_of_illegal hill, fetchAs_record hn]

/-- Settles O9: the shapes other than the fetch run the same cycle, and the fetch decodes to it (`stepFetch_record`). -/
theorem stepIsTheEngineTransition : Obligations.StepIsTheEngineTransition := by
  intro s
  rcases step_cases s with ⟨hend, he⟩ | ⟨hr, hs, he⟩ | ⟨c, hr, hs, he⟩ | ⟨hr, hs, he⟩ | ⟨hr, hs, he⟩ <;> rw [he]
  case inl => rw [cycleWith_of_ended _ hend]
  case inr.inl => rw [cycleWith_flush _ hr hs]
  case inr.inr.inl => rw [cycleWith_stall _ hr hs]
  case inr.inr.inr.inl => rw [cycleWith_drain _ hr hs]
  case inr.inr.inr.inr =>
    cases hn : s.nextResponse with
    | record r => rw [stepFetch_record hn, cycleWith_record _ hr hs hn]
    | outOfRange =>
      rw [cycleWith_outOfRange _ hr hs hn]
      simp [stepFetch, hn]

/-- A step answers the state of the transition, and no other outcome (R94, R211). -/
theorem step_eq_next_iff {s t : State} : step s = .next t ↔ cycleWith Classifier.mips s = t := by
  rw [stepIsTheEngineTransition, Host.Outcome.next.injEq]

/-! ### What the transition can do (R210, R211) -/

theorem shapeOf_eq_drain_iff {s : State} :
    shapeOf s = .drain ↔ s.flush = 0 ∧ s.stall = ⟨0, 0, 0, 0⟩ ∧ s.halted = true := by
  unfold shapeOf
  by_cases hf : s.flush = 0
  · cases hs : activeStall s.stall <;> cases s.halted <;> simp [hf, ← activeStall_none, hs]
  · simp [hf]

theorem shapeOf_eq_fetch_iff {s : State} :
    shapeOf s = .fetch ↔ s.flush = 0 ∧ s.stall = ⟨0, 0, 0, 0⟩ ∧ s.halted = false := by
  unfold shapeOf
  by_cases hf : s.flush = 0
  · cases hs : activeStall s.stall <;> cases s.halted <;> simp [hf, ← activeStall_none, hs]
  · simp [hf]

/-- What holds after the cycle of each shape holds after the transition. -/
theorem cycleWith_cases {P : State → Prop} (K : Classifier) (s : State)
    (ended : s.status ≠ .running → P s)
    (flush : s.status = .running → shapeOf s = .flush → P (flushCycle K s))
    (stall : ∀ c, s.status = .running → shapeOf s = .stall c → P (stallCycle K c s))
    (drain : s.status = .running → shapeOf s = .drain → P (drainCycle K s))
    (record : ∀ r, s.status = .running → shapeOf s = .fetch → s.nextResponse = .record r →
      P (fetchCycle K (Fetched.ofWord K r.word) r s))
    (outOfRange : s.status = .running → shapeOf s = .fetch → s.nextResponse = .outOfRange → P (abortCycle s)) :
    P (cycleWith K s) := by
  by_cases hr : s.status = .running
  case neg => rw [cycleWith_of_ended K hr]; exact ended hr
  cases hs : shapeOf s with
  | flush => rw [cycleWith_flush K hr hs]; exact flush hr hs
  | stall c => rw [cycleWith_stall K hr hs]; exact stall c hr hs
  | drain => rw [cycleWith_drain K hr hs]; exact drain hr hs
  | fetch =>
    cases hn : s.nextResponse with
    | record r => rw [cycleWith_record K hr hs hn]; exact record r hr hs hn
    | outOfRange => rw [cycleWith_outOfRange K hr hs hn]; exact outOfRange hr hs hn

/-! ### The instruction that runs (R216) -/

/-- Settles O8: the shape is the fetch, and the decoder's answer decides the meaning. -/
theorem stepRunsTheDecodedInstruction : Obligations.StepRunsTheDecodedInstruction := by
  intro s r hr hh hf hs hn
  rw [step_fetch hr (shapeOf_fetch hf hs hh)]
  exact ⟨fun i => stepFetch_of_decode hn, fun e => stepFetch_of_reject hn⟩

theorem decode_tableWord {nbits w : Nat} {i : Instr} (h : decodeTableWord nbits w = some i) :
    decode (tableWord nbits w) = .ok i := by
  unfold decodeTableWord at h
  rw [decodeBytes_bytesOfWord] at h
  cases hd : decode (tableWord nbits w) with
  | ok j => simp_all [Except.map]
  | error e => simp_all [Except.map]

theorem nextResponse_readyFor (s : State) (r : Record) : (s.readyFor r).nextResponse = .record r := rfl

theorem shapeOf_readyFor (s : State) (r : Record) : shapeOf (s.readyFor r) = .fetch := rfl

/-- Settles O13: `withFetchWord` leaves nothing pending and the word's record next. -/
theorem stepAfterWithFetchWordRunsTheWord : Obligations.StepAfterWithFetchWordRunsTheWord := by
  intro s nbits w i hi
  have hn : (s.withFetchWord nbits w).nextResponse = .record (recordFor (tableWord nbits w)) :=
    nextResponse_readyFor s _
  have hstep : step (s.withFetchWord nbits w) = exec i (s.withFetchWord nbits w) := by
    rw [step_fetch (s := s.withFetchWord nbits w) rfl (shapeOf_readyFor s _)]
    exact stepFetch_of_decode hn (decode_tableWord hi)
  refine ⟨hstep, _, hstep.trans ((exec_eq_fetchAs i _).trans (fetchAs_record hn)), ?fetch, ?input⟩
  case fetch => simp [fetchCycle]
  case input => simp [fetchCycle, State.withFetchWord]

/-- Settles O28: every meaning is the shared fetching cycle, which aborts on the report. -/
theorem outOfRangeInPlaceOfAnyInstruction : Obligations.OutOfRangeInPlaceOfAnyInstruction := by
  intro s i hn
  rw [exec_eq_fetchAs, fetchAs_outOfRange hn]
  rfl

/-! ### The drain cycle (R232) -/

/-- Settles O17: a drain cycle, with what enters Memory (`enterMemory_eq`) and the drain (`drainOne_eq`) written out. -/
theorem drainCycleShiftsBubbleAndEndsInHalt : Obligations.DrainCycleShiftsBubbleAndEndsInHalt := by
  intro s hr hf hs hh
  rw [step_drain hr (shapeOf_drain hf hs hh), drainCycle, drainOne_eq, enterMemory_eq]
  simp [finishCycle, shiftAll, Pipe.shift, hr, hs, hh]

/-! ### The executor is read by the fetching cycle alone (R7, R216) -/

/-- The state with other responses to come, and the model's count of calls set with them. -/
def State.withResponses (s : State) (l : List Response) (n : Nat) : State := { s with input := l, calls := n }

theorem enterMemory_withResponses (K : Classifier) (s : State) (l : List Response) (n : Nat) :
    enterMemory K (s.withResponses l n) = (enterMemory K s).withResponses l n := by
  rw [enterMemory_eq, enterMemory_eq]; rfl

theorem drainOne_withResponses (s : State) (l : List Response) (n : Nat) :
    drainOne (s.withResponses l n) = (drainOne s).withResponses l n := by
  rw [drainOne_eq, drainOne_eq]; rfl

theorem shiftAll_withResponses (x : Slot) (a : Touched) (s : State) (l : List Response) (n : Nat) :
    shiftAll x a (s.withResponses l n) = (shiftAll x a s).withResponses l n := rfl

theorem flushCycle_withResponses (K : Classifier) (s : State) (l : List Response) (n : Nat) :
    flushCycle K (s.withResponses l n) = (flushCycle K s).withResponses l n := by
  have hserve (u : State) : serveFlush (u.withResponses l n) = (serveFlush u).withResponses l n := rfl
  unfold flushCycle
  rw [shiftAll_withResponses, enterMemory_withResponses, hserve, drainOne_withResponses]
  rfl

theorem stallCycle_withResponses (K : Classifier) (c : StallKind) (s : State) (l : List Response) (n : Nat) :
    stallCycle K c (s.withResponses l n) = (stallCycle K c s).withResponses l n := by
  have hhold : holdFetch (s.withResponses l n) = (holdFetch s).withResponses l n := rfl
  unfold stallCycle
  rw [hhold, enterMemory_withResponses]
  by_cases hfreeze : c = .dMiss ∧ s.dMissInMem = true
  · rw [if_pos hfreeze, if_pos (show c = .dMiss ∧ (s.withResponses l n).dMissInMem = true from hfreeze)]; rfl
  · rw [if_neg hfreeze, if_neg (show ¬ (c = .dMiss ∧ (s.withResponses l n).dMissInMem = true) from hfreeze)]; rfl

theorem drainCycle_withResponses (K : Classifier) (s : State) (l : List Response) (n : Nat) :
    drainCycle K (s.withResponses l n) = (drainCycle K s).withResponses l n := by
  unfold drainCycle
  rw [shiftAll_withResponses, enterMemory_withResponses, drainOne_withResponses]
  rfl

/-- Outside a fetching cycle the transition does not depend on the responses. -/
theorem cycleWith_withResponses {K : Classifier} {s : State} (h : s.status = .running → shapeOf s ≠ .fetch)
    (l : List Response) (n : Nat) :
    cycleWith K (s.withResponses l n) = (cycleWith K s).withResponses l n := by
  have hstatus : (s.withResponses l n).status = s.status := rfl
  have hshape : shapeOf (s.withResponses l n) = shapeOf s := rfl
  refine cycleWith_cases (P := fun t => cycleWith K (s.withResponses l n) = t.withResponses l n) K s
    ?ended ?flush ?stall ?drain ?record ?outOfRange
  case ended => exact fun hr => cycleWith_of_ended K (hstatus ▸ hr)
  case flush =>
    intro hr hs
    rw [cycleWith_flush K (hstatus.trans hr) (hshape.trans hs), flushCycle_withResponses]
  case stall =>
    intro c hr hs
    rw [cycleWith_stall K (hstatus.trans hr) (hshape.trans hs), stallCycle_withResponses]
  case drain =>
    intro hr hs
    rw [cycleWith_drain K (hstatus.trans hr) (hshape.trans hs), drainCycle_withResponses]
  case record => exact fun r hr hs _ => absurd hs (h hr)
  case outOfRange => exact fun hr hs _ => absurd hs (h hr)

/-- Settles O12: in these states the shape is not the fetch, so the responses could be any others
(`cycleWith_withResponses`), in particular the same: then they are those of the state after. -/
theorem onlyFetchingCyclesReadTheExecutor : Obligations.OnlyFetchingCyclesReadTheExecutor := by
  intro s l n h
  have hfetch : s.status = .running → shapeOf s ≠ .fetch := by
    intro hr hs
    obtain ⟨hf, hst, hh⟩ := shapeOf_eq_fetch_iff.1 hs
    simp [hr, hf, hst, hh] at h
  have hsame : cycleWith Classifier.mips s = (cycleWith Classifier.mips s).withResponses s.input s.calls :=
    cycleWith_withResponses hfetch s.input s.calls
  refine ⟨_, stepIsTheEngineTransition s, (congrArg State.input hsame :), (congrArg State.calls hsame :), ?_⟩
  rw [stepIsTheEngineTransition]
  exact congrArg Host.Outcome.next (cycleWith_withResponses hfetch l n)

end Sys2Proof.Machine

/-! PROOFS. 40_arithmetic, 41_load_store, 42_control_halt, 60_exceptions: the whole effect of the cycle that fetches an
instruction, once for every word (`fetchCycle_effect`), then for each family of instructions; and the pairs that
schedule no hazard cycle (44_pipeline_engine R226, R227). -/

namespace Sys2Proof.Machine

/-! ### What entering Memory leaves in the data side's fields (R229, R230) -/

@[simp] theorem enterMemory_dcache (K : Classifier) (s : State) :
    (enterMemory K s).dcache = (entering K s.dcache s.slot.memory s.hist.memory).1 :=
  congrArg State.dcache (enterMemory_eq K s)

@[simp] theorem enterMemory_stall (K : Classifier) (s : State) :
    (enterMemory K s).stall =
      { s.stall with dMiss := s.stall.dMiss + (entering K s.dcache s.slot.memory s.hist.memory).2.1 } :=
  congrArg State.stall (enterMemory_eq K s)

@[simp] theorem enterMemory_dMissInMem (K : Classifier) (s : State) :
    (enterMemory K s).dMissInMem = (s.dMissInMem || (entering K s.dcache s.slot.memory s.hist.memory).2.2) :=
  congrArg State.dMissInMem (enterMemory_eq K s)

/-! ### The fetching cycle (R216 to R233) -/

/-- The flush counter that a record's flags make (R221). -/
def flushAfter (r : Record) (s : State) : Nat :=
  if r.halt then s.flush else if r.valid = false then s.flush + 2 else if r.overflow then s.flush + 3 else s.flush

/-- `halted` after a record's flags (R220). -/
def haltedAfter (r : Record) (s : State) : Bool := if r.halt then true else s.halted

/-- `drain` after a record's flags (R220). -/
def drainAfter (r : Record) (s : State) : Nat := if r.halt then 4 else s.drain

/-- Every field of the state after a fetching cycle. -/
theorem fetchCycle_effect (K : Classifier) (f : Fetched) (r : Record) (s : State) :
    FetchEffect K f.word f.kind f.srcRegs r.pc (pushedAddr f.kind r.addr) (flushAfter r s) (haltedAfter r s)
      (drainAfter r s) s (fetchCycle K f r s) := by
  constructor <;> simp [fetchCycle, Pipe.shift, flushAfter, haltedAfter, drainAfter]

/-- Every instruction whose record comes next completes, with the effect of the fetching cycle. -/
theorem exec_effect {s : State} {r : Record} (i : Instr) (hn : s.nextResponse = .record r) :
    ∃ t, exec i s = .next t ∧
      FetchEffect Classifier.mips (encode i) i.kind (sourcesOf i) r.pc (pushedAddr i.kind r.addr) (flushAfter r s)
        (haltedAfter r s) (drainAfter r s) s t :=
  ⟨_, (exec_eq_fetchAs i s).trans (fetchAs_record hn), fetchCycle_effect _ ⟨_, _, _⟩ _ _⟩

/-- The same for a record without halt or fault flag, the kind and the sources given. -/
theorem exec_effect_of_noFlags {s : State} {r : Record} {i : Instr} {k : OpKind} {srcs : List RegNum}
    (hn : s.nextResponse = .record r) (hh : r.halt = false) (hv : r.valid = true) (ho : r.overflow = false)
    (hi : i.kind = k ∧ sourcesOf i = srcs) :
    ∃ t, exec i s = .next t ∧
      FetchEffect Classifier.mips (encode i) k srcs r.pc (pushedAddr k r.addr) s.flush s.halted s.drain s t := by
  obtain ⟨rfl, rfl⟩ := hi
  simpa [flushAfter, haltedAfter, drainAfter, hh, hv, ho] using exec_effect i hn

/-- Settles O27, by the kind and the sources of the instruction's word. -/
theorem recordFlagsDecideHaltAndFlush : Obligations.RecordFlagsDecideHaltAndFlush := by
  intro s r i hn
  rw [classifyWord_encode, srcRegsWord_encode, ← pushedAddr_eq]
  exact exec_effect i hn

/-- The same for a family of instructions of one kind with the same sources. -/
theorem exec_effect_of_family {s : State} {r : Record} {l : List Instr} {k : OpKind} {srcs : List RegNum}
    (hl : ∀ i ∈ l, i.kind = k ∧ sourcesOf i = srcs)
    (hn : s.nextResponse = .record r) (hh : r.halt = false) (hv : r.valid = true) (ho : r.overflow = false) :
    ∀ i ∈ l, ∃ t, exec i s = .next t ∧
      FetchEffect Classifier.mips (encode i) k srcs r.pc (pushedAddr k r.addr) s.flush s.halted s.drain s t :=
  fun i hi => exec_effect_of_noFlags hn hh hv ho (hl i hi)

/-- Settles O19, by the family's kind and sources. -/
theorem arithmeticOpsAreFetched : Obligations.ArithmeticOpsAreFetched :=
  fun _ _ _ _ _ _ => exec_effect_of_family (by simp [Instr.kind, sourcesOf])

/-- Settles O20, by the family's kind and sources. -/
theorem immediateOpsAreFetched : Obligations.ImmediateOpsAreFetched :=
  fun _ _ _ _ _ => exec_effect_of_family (by simp [Instr.kind, sourcesOf])

/-- Settles O21: of a load, the history takes the record's address (`pushedAddr`). -/
theorem loadsAreFetchedWithTheirAddress : Obligations.LoadsAreFetchedWithTheirAddress :=
  fun _ _ _ _ _ => exec_effect_of_family (by simp [Instr.kind, sourcesOf])

/-- Settles O22: of a store, the history takes the record's address (`pushedAddr`). -/
theorem storesAreFetchedWithTheirAddress : Obligations.StoresAreFetchedWithTheirAddress :=
  fun _ _ _ _ _ => exec_effect_of_family (by simp [Instr.kind, sourcesOf])

/-- Settles O23, by the family's kind and sources. -/
theorem branchesAreFetched : Obligations.BranchesAreFetched :=
  fun _ _ _ _ _ => exec_effect_of_family (by simp [Instr.kind, sourcesOf])

/-- A consumer that is neither branch nor arithmetic schedules nothing, whatever stands before it (R226). -/
theorem hazardCycles_of_noConsumer {k : OpKind} (hb : k ≠ .branch) (ha : k ∉ arithmeticKinds) (K : Classifier) (n : Nat)
    (srcs : List RegNum) (dec exe : Slot) :
    exHazardCycles K k srcs dec = 0 ∧ decHazardCycles K n k srcs dec exe = 0 := by
  simp [exHazardCycles, decHazardCycles, hb, ha]

/-- A jump without a fault, of either kind: the whole effect, and no hazard cycle. -/
theorem exec_jump_effect {s : State} {r : Record} {i : Instr} {k : OpKind} (hn : s.nextResponse = .record r)
    (hh : r.halt = false) (hv : r.valid = true) (ho : r.overflow = false) (hk : k = .jump ∨ k = .jumpRegister)
    (hi : i.kind = k ∧ sourcesOf i = []) :
    ∃ t, exec i s = .next t ∧ t.stall.decHaz = s.stall.decHaz ∧ t.stall.exHaz = s.stall.exHaz ∧
      FetchEffect Classifier.mips (encode i) k [] r.pc .noAddr s.flush s.halted s.drain s t := by
  obtain ⟨t, ht, heffect⟩ := exec_effect_of_noFlags hn hh hv ho hi
  have hbranch : k ≠ .branch := by rcases hk with rfl | rfl <;> decide
  have harith : k ∉ arithmeticKinds := by rcases hk with rfl | rfl <;> decide
  have haddr : pushedAddr k r.addr = .noAddr := by rcases hk with rfl | rfl <;> rfl
  have hdec := heffect.decHaz
  have hex := heffect.exHaz
  rw [(hazardCycles_of_noConsumer hbranch harith ..).2, Nat.add_zero] at hdec
  rw [(hazardCycles_of_noConsumer hbranch harith _ 0 _ _ .bubble).1, Nat.add_zero] at hex
  exact ⟨t, ht, hdec, hex, haddr ▸ heffect⟩

/-- Settles O24: a jump is no consumer of any hazard rule (`exec_jump_effect`). -/
theorem jumpsAreFetchedWithoutHazard : Obligations.JumpsAreFetchedWithoutHazard := by
  intro s r a rs rt rd sh hn hh hv ho
  refine ⟨fun i hi => ?jump, ?jumpRegister⟩
  case jump =>
    have hkind : i.kind = .jump ∧ sourcesOf i = [] := by
      revert i
      simp [Instr.kind, sourcesOf]
    exact exec_jump_effect hn hh hv ho (.inl rfl) hkind
  case jumpRegister => exact exec_jump_effect hn hh hv ho (.inr rfl) ⟨rfl, rfl⟩

/-- Settles O25: with the halt flag the fault flags are not read. -/
theorem haltIsFetchedAndLatched : Obligations.HaltIsFetchedAndLatched := by
  intro s r hn hh
  have heffect := exec_effect .halt hn
  simp only [flushAfter, haltedAfter, drainAfter, hh, if_true] at heffect
  exact heffect

/-- Settles O26: the step is the fetching cycle, which reads an Illegal word as one without sources. -/
theorem illegalWordArmsTwoFlushCycles : Obligations.IllegalWordArmsTwoFlushCycles := by
  intro s r hill hr hh hf hs hn hv hhalt
  refine ⟨_, (step_fetch hr (shapeOf_fetch hf hs hh)).trans (stepFetch_record hn), ?_⟩
  rw [← fetched_of_illegal hill]
  have heffect := fetchCycle_effect Classifier.mips ⟨r.word, .illegal, []⟩ r s
  simp only [flushAfter, haltedAfter, drainAfter, hv, hhalt, hf, hh] at heffect
  exact heffect

/-! ### The pairs that schedule nothing (R226, R227) -/

theorem producerIn_of_noMatch {K : Classifier} {wd : Word} {srcs : List RegNum}
    (h : ∀ d, K.destReg wd = some d → d ∉ srcs) (ks : List OpKind) : producerIn K ks srcs (.instr wd) = false := by
  cases hd : K.destReg wd with
  | none => simp [producerIn, hd]
  | some d => simp [producerIn, hd, h d hd]

theorem producerIn_of_kind_not_mem {K : Classifier} {wd : Word} {ks : List OpKind} (h : K.classify wd ∉ ks)
    (srcs : List RegNum) : producerIn K ks srcs (.instr wd) = false := by
  simp [producerIn, h]

/-- Without a producer in Decode of a kind that the rules name, only the OPEN rule is left (R222, R227). -/
theorem hazardCycles_of_noProducer {K : Classifier} {srcs : List RegNum} {dec : Slot}
    (ha : producerIn K arithmeticKinds srcs dec = false) (hl : producerIn K [.load] srcs dec = false) (n : Nat)
    (k : OpKind) (exe : Slot) :
    exHazardCycles K k srcs dec = 0 ∧
    decHazardCycles K n k srcs dec exe = if k = .branch ∧ producerIn K [.load] srcs exe then n else 0 := by
  simp [exHazardCycles, decHazardCycles, ha, hl]

/-- Settles O32: in each alternative there is no consumer, or no producer, or an arithmetic producer of an arithmetic
consumer, for which there is no rule. -/
theorem noOtherPairStalls : Obligations.NoOtherPairStalls := by
  intro K s r hr hh hf hs hn hoff halt
  obtain ⟨hex, hdec⟩ := cycleWith_hazards K hr hh hf hs hn
  rw [hex, hdec, hoff]
  have hnone (ha : producerIn K arithmeticKinds (K.srcRegs r.word) s.slot.fetch = false)
      (hl : producerIn K [.load] (K.srcRegs r.word) s.slot.fetch = false) :
      exHazardCycles K (K.classify r.word) (K.srcRegs r.word) s.slot.fetch = 0 ∧
      decHazardCycles K 0 (K.classify r.word) (K.srcRegs r.word) s.slot.fetch s.slot.decode = 0 := by
    simpa using hazardCycles_of_noProducer ha hl 0 (K.classify r.word) s.slot.decode
  obtain hbubble | ⟨wd, hslot, hconsumer | hproducer | ⟨hbranch, hload⟩ | hmatch⟩ := halt
  case inl => exact hnone (by rw [hbubble]; rfl) (by rw [hbubble]; rfl)
  case inr.inl =>
    simp only [List.mem_cons, not_or] at hconsumer
    obtain ⟨hb, ha, hi, -⟩ := hconsumer
    exact hazardCycles_of_noConsumer hb (by simp [arithmeticKinds, ha, hi]) ..
  case inr.inr.inl =>
    simp only [List.mem_cons, not_or] at hproducer
    obtain ⟨hl, ha, hi, -⟩ := hproducer
    rw [hslot] at hnone ⊢
    exact hnone (producerIn_of_kind_not_mem (by simp [arithmeticKinds, ha, hi]) _)
      (producerIn_of_kind_not_mem (by simp [hl]) _)
  case inr.inr.inr.inl =>
    have hl := producerIn_of_kind_not_mem (ks := [.load]) (by simpa using hload) (K.srcRegs r.word)
    simp [exHazardCycles, decHazardCycles, hslot, hbranch, hl]
  case inr.inr.inr.inr =>
    rw [hslot] at hnone ⊢
    exact hnone (producerIn_of_noMatch hmatch _) (producerIn_of_noMatch hmatch _)

/-- Settles O33: no rule finds a producer in Decode, and the load in Execute is one for the OPEN rule. -/
theorem loadInExecuteStallsByTheOpenParameter : Obligations.LoadInExecuteStallsByTheOpenParameter := by
  intro K s r we d hr hh hf hs hn hbranch hslot hload hd hm hnoOther
  obtain ⟨hex, hdec⟩ := cycleWith_hazards K hr hh hf hs hn
  have hnoProducer : ∀ ks : List OpKind, ks ⊆ [.arithmeticOp, .arithmeticImmediateOp, .load] →
      producerIn K ks (K.srcRegs r.word) s.slot.fetch = false := by
    intro ks hks
    cases hfetch : s.slot.fetch with
    | bubble => rfl
    | instr wd =>
      by_cases hk : K.classify wd ∈ ks
      · exact producerIn_of_noMatch (hnoOther wd hfetch (hks hk)) ks
      · exact producerIn_of_kind_not_mem hk _
  have hproducer : producerIn K [.load] (K.srcRegs r.word) (.instr we) = true := by
    simp [producerIn_of_match hd hm, hload]
  obtain ⟨hnoEx, hopen⟩ := hazardCycles_of_noProducer (hnoProducer arithmeticKinds (by decide))
    (hnoProducer [.load] (by decide)) s.params.execLoadBranchStall (K.classify r.word) s.slot.decode
  rw [hex, hdec, hnoEx, hopen, hslot]
  simp [hbranch, hproducer]

end Sys2Proof.Machine

/-! PROOFS. 43_cache_model: blocks and their set and tag (R183), what every access does whatever the case (R184), the
block just accessed (R185 to R187, R191), and the invariant of a cache (R191, R192, R194). -/

namespace Sys2Proof.Machine

/-! ### Blocks (R183) -/

theorem setCount_eq_pow {c : CacheConfig} (h : validConfig c = true) : setCount c = 2 ^ indexBits c := by
  simp only [validConfig, isPow2, Bool.and_eq_true, beq_iff_eq] at h
  obtain ⟨-, -, hpow⟩ := h
  exact hpow.symm

/-- The tag is the block's number without its index bits (R183). -/
theorem tagOf_eq_div {c : CacheConfig} (h : validConfig c = true) (a : Word) :
    tagOf c a = (a.toNat >>> offsetBits c) / setCount c := by
  rw [tagOf, Nat.shiftRight_add, setCount_eq_pow h, Nat.shiftRight_eq_div_pow _ (indexBits c)]

/-- Settles O34: a number is its quotient and its remainder by the number of sets. -/
theorem sameBlockIsSameSetAndTag : Obligations.SameBlockIsSameSetAndTag := by
  intro c a b hc
  rw [tagOf_eq_div hc, tagOf_eq_div hc, setIndex, setIndex]
  refine ⟨fun h => by rw [h]; exact ⟨rfl, rfl⟩, fun ⟨hmod, hdiv⟩ => ?_⟩
  rw [← Nat.div_add_mod (a.toNat >>> offsetBits c) (setCount c), hmod, hdiv, Nat.div_add_mod]

/-! ### Every access (R184) -/

theorem access_sets_getElem? (c : Cache) (a : Word) (x : Bool) {j : Nat} (hj : j ≠ setIndex c.cfg a) :
    (c.access a x).2.sets[j]? = c.sets[j]? :=
  List.getElem?_set_ne (Ne.symm hj)

/-- Settles O36, by `access_fst`, `access_counters` and `access_sets_getElem?`. -/
theorem accessHitsExactlyResidentBlocks : Obligations.AccessHitsExactlyResidentBlocks := by
  intro c a x
  obtain ⟨hhits, hmisses⟩ := access_counters c a x
  refine ⟨by rw [access_fst], fun h => ?hit, fun h => ?miss, fun j => access_sets_getElem? c a x, access_cfg c a x⟩
  case hit => exact ⟨by simp [hhits, h], by simp [hmisses, h]⟩
  case miss => exact ⟨by simp [hhits, h], by simp [hmisses, h]⟩

/-! ### The block just accessed -/

theorem mem_fill_self {t : Nat} {ws : List Way} (h : ws.all Way.valid = false) :
    (⟨t, true, 1⟩ : Way) ∈ fill t ws := by
  induction ws with
  | nil => simp at h
  | cons w ws ih =>
    cases hv : w.valid with
    | false => simp [fill, hv]
    | true => simp [fill, hv, ih (by simpa [hv] using h)]

/-- After a lookup some way holds its tag at rank 1: the matched one, the filled one, or the victim. -/
theorem exists_holds_accessSet {c : CacheConfig} {ws : List Way} (h : SetOk c ws) (hpos : 1 ≤ c.ways) (t : Nat) :
    ∃ w ∈ (accessSet c.ways t ws).2, w.holds t = true ∧ w.rank = 1 := by
  by_cases hhit : ws.any (Way.holds t) = true
  case pos =>
    obtain ⟨m, hmem, hm⟩ := List.any_eq_true.1 hhit
    rw [accessSet_hit h.tags hmem hm]
    exact ⟨{ m with rank := 1 }, List.mem_map.2 ⟨m, hmem, if_pos rfl⟩, hm, rfl⟩
  rw [accessSet_miss (Bool.eq_false_iff.2 hhit)]
  by_cases hfull : ws.all Way.valid = true
  case neg =>
    rw [if_neg hfull]
    exact ⟨⟨t, true, 1⟩, mem_fill_self (Bool.eq_false_iff.2 hfull), holds_iff.2 ⟨rfl, rfl⟩, rfl⟩
  rw [if_pos hfull]
  obtain ⟨v, hvmem, hvrank, -⟩ := exists_unique_oldest h.ranks hfull (h.ways ▸ hpos)
  rw [h.ways] at hvrank
  refine ⟨_, List.mem_map.2 ⟨v, hvmem, rfl⟩, holds_iff.2 ⟨?valid, if_pos hvrank⟩, ?rank⟩
  case valid => exact List.all_eq_true.1 hfull v hvmem
  case rank => simp [hvrank]

/-- Settles O35: the way that holds the tag after the access (`exists_holds_accessSet`) stands in the set of every
address of the block, so the next access finds it. -/
theorem accessedBlockIsMostRecentAndHits : Obligations.AccessedBlockIsMostRecentAndHits := by
  intro c a b x y hok hblock
  obtain ⟨hindex, htag⟩ := (sameBlockIsSameSetAndTag c.cfg a b hok.config).1 hblock
  obtain ⟨w, hw, hholds, hrank⟩ :=
    exists_holds_accessSet (setOk_setOf hok a) (one_le_ways hok.config) (tagOf c.cfg a)
  have hset (b' : Word) (hi : setIndex c.cfg a = setIndex c.cfg b') : w ∈ (c.access a x).2.setOf b' :=
    setOf_access hok x hi ▸ hw
  refine ⟨⟨w, hset a rfl, hholds, hrank⟩, ?_⟩
  rw [access_fst, resident_eq, access_cfg, ← htag]
  exact List.any_eq_true.2 ⟨w, hset b hindex, hholds⟩

/-! ### The invariant (R191, R192, R194) -/

theorem cacheOk_access {c : Cache} (h : CacheOk c) (a : Word) (x : Bool) : CacheOk (c.access a x).2 where
  config := h.config
  sets := (access_sets_length c a x).trans h.sets
  each ws hws := by
    rcases List.mem_or_eq_of_mem_set hws with hmem | rfl
    · exact h.each ws hmem
    · exact setOk_accessSet (setOk_setOf h a) (tagOf_lt c.cfg a)

/-- A set of invalid ways meets what must hold of a set (10_state R42). -/
theorem setOk_replicate_invalid (c : CacheConfig) : SetOk c (List.replicate c.ways Way.invalid) where
  ways := List.length_replicate
  ranks := by simp [LruRanks, validRanks, Way.invalid]
  tags := by simp [validTags, Way.invalid]
  filled := List.pairwise_replicate.2 (.inr id)
  range w hw := by
    obtain rfl := List.eq_of_mem_replicate hw
    exact Nat.two_pow_pos _
  filler _ hw _ := List.eq_of_mem_replicate hw

theorem cacheOk_freshCache {c : CacheConfig} (h : validConfig c = true) : CacheOk (freshCache c) where
  config := h
  sets := freshCache_sets_length c
  each ws hws := by
    obtain rfl := eq_replicate_of_mem_freshCache hws
    exact setOk_replicate_invalid c

/-- Settles O41, by `cacheOk_freshCache` and `cacheOk_access`. -/
theorem accessKeepsCacheInvariant : Obligations.AccessKeepsCacheInvariant :=
  ⟨fun _ => cacheOk_freshCache, fun _ a x h => cacheOk_access h a x⟩

end Sys2Proof.Machine

/-! PROOFS. 10_state, 44_pipeline_engine R236, 70_reset_and_hazards: the invariant of the block, part by part: what each
movement keeps of the history, and what each cycle keeps of the halt and drain bookkeeping; reset meets it, every step
keeps it, and what it says at Halt. -/

namespace Sys2Proof.Machine

/-! ### The history beside the slots (10_state R22) -/

theorem histOk_of_eq {K : Classifier} {s t : State} (h : HistOk K s) (hslot : t.slot = s.slot)
    (hhist : t.hist = s.hist) : HistOk K t := by
  unfold HistOk
  rwa [hslot, hhist]

/-- A shift keeps the lockstep if the new entries agree. -/
theorem histOk_shiftAll {K : Classifier} {s : State} (h : HistOk K s) {x : Slot} {ad : Touched}
    (hnew : ∀ a, ad = .addr a → (x.kind K).isMem = true) : HistOk K (shiftAll x ad s) := by
  intro st a ha
  cases st with
  | fetch => exact hnew a ha
  | decode => exact h .fetch a ha
  | execute => exact h .decode a ha
  | memory => exact h .execute a ha
  | writeback => exact h .memory a ha

theorem histOk_shiftAll_bubble {K : Classifier} {s : State} (h : HistOk K s) :
    HistOk K (shiftAll .bubble .noAddr s) :=
  histOk_shiftAll h fun _ ha => nomatch ha

theorem isMem_of_pushedAddr {k : OpKind} {ad : Touched} {a : Word} (h : pushedAddr k ad = .addr a) :
    k.isMem = true := by
  unfold pushedAddr at h
  split at h
  next hk => exact hk
  next => cases h

theorem histOk_holdFetch {K : Classifier} {s : State} (h : HistOk K s) : HistOk K (holdFetch s) := by
  intro st a ha
  rw [holdFetch_slot]
  rw [holdFetch_hist] at ha
  generalize s.params.stallBubbleStage = b at ha ⊢
  cases b with
  | execute =>
    cases st with
    | fetch => exact h .fetch a ha
    | decode => exact h .decode a ha
    | execute => cases ha
    | memory => exact h .execute a ha
    | writeback => exact h .memory a ha
  | decode =>
    cases st with
    | fetch => exact h .fetch a ha
    | decode => cases ha
    | execute => exact h .decode a ha
    | memory => exact h .execute a ha
    | writeback => exact h .memory a ha

theorem histOk_freezeMemory {K : Classifier} {s : State} (h : HistOk K s) : HistOk K (freezeMemory s) := by
  intro st a ha
  cases st with
  | fetch => exact h .fetch a ha
  | decode => exact h .decode a ha
  | execute => exact h .execute a ha
  | memory => exact h .memory a ha
  | writeback => cases ha

/-! ### What enters Memory (R229) -/

theorem cacheOk_entering {c : Cache} (h : CacheOk c) (K : Classifier) (p : Slot) (ad : Touched) :
    CacheOk (entering K c p ad).1 := by
  rcases entering_cases K c p ad with ⟨he, -⟩ | ⟨w, a, -, -, -, -, he⟩ | ⟨w, a, -, -, -, -, he⟩ <;> rw [he]
  case inl => exact h
  case inr.inl => exact cacheOk_access h a (K.classify w).isStore
  case inr.inr => exact cacheOk_access h a (K.classify w).isStore

/-- Only the lookup of a load or store misses. -/
theorem isMem_of_entering_missed {K : Classifier} {c : Cache} {p : Slot} {ad : Touched}
    (h : (entering K c p ad).2.2 = true) : (p.kind K).isMem = true := by
  rcases entering_cases K c p ad with ⟨he, -⟩ | ⟨w, a, hp, -, hmem, -, he⟩ | ⟨w, a, hp, -, hmem, -, he⟩
  case inl => simp [he] at h
  case inr.inl => rw [hp]; exact hmem
  case inr.inr => rw [hp]; exact hmem

/-- Only a miss schedules cycles. -/
theorem missed_of_entering_cycles {K : Classifier} {c : Cache} {p : Slot} {ad : Touched}
    (h : (entering K c p ad).2.1 ≠ 0) : (entering K c p ad).2.2 = true := by
  rcases entering_cases K c p ad with ⟨he, -⟩ | ⟨w, a, -, -, -, -, he⟩ | ⟨w, a, -, -, -, -, he⟩ <;> simp_all

@[simp] theorem entering_bubble (K : Classifier) (c : Cache) (ad : Touched) :
    entering K c .bubble ad = (c, 0, false) := rfl

/-! ### The way of the halt (10_state R26, R232) -/

/-- A shift of a Bubble moves the halt's place on with it. -/
theorem haltSlot_shift {n : Nat} (h1 : 1 ≤ n) (h4 : n ≤ 4) (p : Pipe Slot) (x : Slot) :
    haltSlot (n - 1) (p.shift x) = haltSlot n p := by
  interval_cases n <;> rfl

theorem youngerEmpty_shift {n : Nat} {p : Pipe Slot} (h1 : 1 ≤ n) (h4 : n ≤ 4) (h : youngerEmpty n p) :
    youngerEmpty (n - 1) (p.shift .bubble) := by
  obtain ⟨hfetch, hdecode, hexecute, -⟩ := h
  exact ⟨fun _ => rfl, fun _ => hfetch (by omega), fun _ => hdecode (by omega), fun _ => hexecute (by omega)⟩

/-- A movement that holds Fetch, and every stage but Writeback once the halt has left it, holds the halt's place. -/
theorem haltSlot_congr {n : Nat} (h1 : 1 ≤ n) (h4 : n ≤ 4) {p q : Pipe Slot} (hfetch : q.fetch = p.fetch)
    (hothers : n ≤ 3 → q.decode = p.decode ∧ q.execute = p.execute ∧ q.memory = p.memory) :
    haltSlot n q = haltSlot n p := by
  by_cases hn : n ≤ 3
  · obtain ⟨hd, he, hm⟩ := hothers hn
    interval_cases n <;> simp [haltSlot, hd, he, hm]
  · obtain rfl : n = 4 := by omega
    exact hfetch

theorem youngerEmpty_congr {n : Nat} {p q : Pipe Slot} (h : youngerEmpty n p) (hfetch : q.fetch = p.fetch)
    (hothers : n ≤ 3 → q.decode = p.decode ∧ q.execute = p.execute ∧ q.memory = p.memory) : youngerEmpty n q := by
  obtain ⟨hf, hd, he, hm⟩ := h
  refine ⟨fun hn => hfetch.trans (hf hn), fun hn => ?_, fun hn => ?_, fun hn => ?_⟩
  · exact (hothers (by omega)).1.trans (hd hn)
  · exact (hothers (by omega)).2.1.trans (he hn)
  · exact (hothers (by omega)).2.2.trans (hm hn)

/-- Before the halt is obtained there is nothing to keep but `drain` at 0. -/
theorem drainOk_of_not_halted {t : State} (hh : t.halted = false) (hd : t.drain = 0) (hs : t.status ≠ .halt) :
    DrainOk t where
  notHalted _ := hd
  running _ h := by simp [hh] at h
  ended h := absurd h hs
  noFlush h := by simp [hh] at h
  occupied h := by simp [hh] at h
  younger h := by simp [hh] at h
  onlyFreezes h := by simp [hh] at h

/-- While the halt is on its way no flush is pending, so a flush cycle comes before it. -/
theorem not_halted_of_flush {s : State} (h : DrainOk s) (hs : shapeOf s = .flush) : s.halted = false := by
  by_contra hh
  exact shapeOf_flush.1 hs (h.noFlush (by simpa using hh))

theorem drainOk_flushCycle {K : Classifier} {s : State} (h : DrainOk s) (hr : s.status = .running)
    (hs : shapeOf s = .flush) : DrainOk (flushCycle K s) := by
  have hh := not_halted_of_flush h hs
  apply drainOk_of_not_halted <;> simp [flushCycle, hh, h.notHalted hh, hr]

/-! ### The stall cycle -/

theorem stallCycle_of_freeze {c : StallKind} {s : State} (K : Classifier) (h : c = .dMiss ∧ s.dMissInMem = true) :
    stallCycle K c s = finishCycle (serveStall c (freezeMemory s)) := by
  rw [stallCycle, if_pos h]

theorem stallCycle_of_regular {c : StallKind} {s : State} (K : Classifier) (h : ¬ (c = .dMiss ∧ s.dMissInMem = true)) :
    stallCycle K c s = finishCycle (serveStall c (enterMemory K (holdFetch s))) := by
  rw [stallCycle, if_neg h]

@[simp] theorem stallCycle_status (K : Classifier) (c : StallKind) (s : State) :
    (stallCycle K c s).status = s.status := by
  unfold stallCycle; split <;> simp
@[simp] theorem stallCycle_halted (K : Classifier) (c : StallKind) (s : State) :
    (stallCycle K c s).halted = s.halted := by
  unfold stallCycle; split <;> simp
@[simp] theorem stallCycle_drain (K : Classifier) (c : StallKind) (s : State) :
    (stallCycle K c s).drain = s.drain := by
  unfold stallCycle; split <;> simp
@[simp] theorem stallCycle_flush (K : Classifier) (c : StallKind) (s : State) :
    (stallCycle K c s).flush = s.flush := by
  unfold stallCycle; split <;> simp
@[simp] theorem stallCycle_slot_fetch (K : Classifier) (c : StallKind) (s : State) :
    (stallCycle K c s).slot.fetch = s.slot.fetch := by
  unfold stallCycle; split <;> simp

/-- After the halt has left Fetch, a stall cycle is a freeze (44_pipeline_engine R236(c)). -/
theorem freeze_of_drain {s : State} {c : StallKind} (h : DrainOk s) (hh : s.halted = true) (hd : s.drain ≤ 3)
    (hc : activeStall s.stall = some c) : c = .dMiss ∧ s.dMissInMem = true := by
  obtain ⟨hi, hdec, hex, hmiss⟩ := h.onlyFreezes hh hd
  cases c with
  | iMiss => exact absurd hi (activeStall_iMiss.1 hc)
  | dMiss => exact ⟨rfl, hmiss (activeStall_dMiss.1 hc).2⟩
  | decHaz => exact absurd hdec (activeStall_decHaz.1 hc).2.2
  | exHaz => exact absurd hex (activeStall_exHaz.1 hc).2.2.2

/-- So on the way of the halt a stall cycle moves nothing but what is older than it. -/
theorem stallCycle_slots_of_drain {s : State} {c : StallKind} (K : Classifier) (h : DrainOk s) (hh : s.halted = true)
    (hc : activeStall s.stall = some c) (hd : s.drain ≤ 3) :
    (stallCycle K c s).slot.decode = s.slot.decode ∧ (stallCycle K c s).slot.execute = s.slot.execute ∧
    (stallCycle K c s).slot.memory = s.slot.memory := by
  rw [stallCycle_of_freeze K (freeze_of_drain h hh hd hc)]
  exact ⟨rfl, rfl, rfl⟩

theorem haltSlot_stallCycle {s : State} {c : StallKind} (K : Classifier) (h : DrainOk s) (hr : s.status = .running)
    (hh : s.halted = true) (hc : activeStall s.stall = some c) :
    haltSlot s.drain (stallCycle K c s).slot = haltSlot s.drain s.slot := by
  obtain ⟨h1, h4⟩ := h.running hr hh
  exact haltSlot_congr h1 h4 (stallCycle_slot_fetch K c s) (stallCycle_slots_of_drain K h hh hc)

theorem drainOk_stallCycle {K : Classifier} {s : State} {c : StallKind} (h : DrainOk s) (hr : s.status = .running)
    (hs : shapeOf s = .stall c) : DrainOk (stallCycle K c s) := by
  obtain ⟨hf, hc⟩ := shapeOf_stall.1 hs
  cases hh : s.halted with
  | false => apply drainOk_of_not_halted <;> simp [hh, h.notHalted hh, hr]
  | true =>
    exact {
      notHalted := by simp [hh]
      running := by simpa [hr, hh] using h.running hr hh
      ended := by simp [hr]
      noFlush := by simp [hf]
      occupied := by
        rw [stallCycle_drain, haltSlot_stallCycle K h hr hh hc]
        exact fun _ => h.occupied hh
      younger := by
        rw [stallCycle_drain]
        exact fun _ => youngerEmpty_congr (h.younger hh) (stallCycle_slot_fetch K c s)
          (stallCycle_slots_of_drain K h hh hc)
      onlyFreezes := by
        rw [stallCycle_drain]
        intro _ hd
        obtain ⟨rfl, hmiss⟩ := freeze_of_drain h hh hd hc
        obtain ⟨hi, hdec, hex, -⟩ := h.onlyFreezes hh hd
        rw [stallCycle_of_freeze K ⟨rfl, hmiss⟩]
        exact ⟨hi, hdec, hex, fun _ => hmiss⟩ }

/-! ### The drain cycle and the fetching cycle -/

/-- When the last drain cycle starts, Execute is empty, so nothing enters Memory. -/
theorem entering_of_last_drain {K : Classifier} {s : State} (h : DrainOk s) (hh : s.halted = true)
    (hd : s.drain - 1 = 0) :
    entering K s.dcache s.slot.execute s.hist.execute = (s.dcache, 0, false) := by
  obtain ⟨-, -, hexecute, -⟩ := h.younger hh
  rw [hexecute (by omega), entering_bubble]

theorem drainOk_drainCycle {K : Classifier} {s : State} (h : DrainOk s) (hr : s.status = .running)
    (hs : shapeOf s = .drain) : DrainOk (drainCycle K s) := by
  obtain ⟨hf, hst, hh⟩ := shapeOf_eq_drain_iff.1 hs
  obtain ⟨h1, h4⟩ := h.running hr hh
  have hslot : (drainCycle K s).slot = s.slot.shift .bubble := by simp [drainCycle]
  have hdrain : (drainCycle K s).drain = s.drain - 1 := by simp [drainCycle, hh]
  have hstatus : (drainCycle K s).status = if s.drain - 1 = 0 then .halt else .running := by
    simp [drainCycle, hh, hr]
  have hstall : (drainCycle K s).stall = ⟨0, (entering K s.dcache s.slot.execute s.hist.execute).2.1, 0, 0⟩ := by
    simp [drainCycle, hst]
  have hmiss : (drainCycle K s).dMissInMem = (entering K s.dcache s.slot.execute s.hist.execute).2.2 := by
    simp [drainCycle]
  exact {
    notHalted := by simp [drainCycle, hh]
    running := by
      intro hrun _
      rw [hstatus] at hrun
      split at hrun
      next => cases hrun
      next hd => omega
    ended := by
      intro hend
      rw [hstatus] at hend
      split at hend
      next hd =>
        rw [hstall, entering_of_last_drain h hh hd]
        exact ⟨by simp [drainCycle, hh], by omega, rfl⟩
      next => cases hend
    noFlush := by simp [drainCycle, hf]
    occupied := by
      rw [hdrain, hslot, haltSlot_shift h1 h4]
      exact fun _ => h.occupied hh
    younger := by
      rw [hdrain, hslot]
      exact fun _ => youngerEmpty_shift h1 h4 (h.younger hh)
    onlyFreezes := by
      rw [hstall, hmiss]
      exact fun _ _ => ⟨rfl, rfl, rfl, missed_of_entering_cycles⟩ }

/-- The fetch comes before the halt; if it brings the halt, that stands in Fetch with all drain cycles to run. -/
theorem drainOk_fetchCycle {K : Classifier} {f : Fetched} {r : Record} {s : State} (h : DrainOk s)
    (hr : s.status = .running) (hs : shapeOf s = .fetch) : DrainOk (fetchCycle K f r s) := by
  obtain ⟨hf, -, hh⟩ := shapeOf_eq_fetch_iff.1 hs
  have heffect := fetchCycle_effect K f r s
  have hstatus := heffect.status.trans hr
  cases hhalt : r.halt with
  | false =>
    refine drainOk_of_not_halted ?_ ?_ (by simp [hstatus])
    · simpa [haltedAfter, hhalt, hh] using heffect.halted
    · simpa [drainAfter, hhalt, h.notHalted hh] using heffect.drain
  | true =>
    have hhalted : (fetchCycle K f r s).halted = true := by simpa [haltedAfter, hhalt] using heffect.halted
    have hdrain : (fetchCycle K f r s).drain = 4 := by simpa [drainAfter, hhalt] using heffect.drain
    exact {
      notHalted := by simp [hhalted]
      running := by simp [hdrain]
      ended := by simp [hstatus]
      noFlush _ := by simpa [flushAfter, hhalt, hf] using heffect.flush
      occupied := by simp [hdrain, haltSlot, heffect.slot]
      younger := by simp [hdrain, youngerEmpty]
      onlyFreezes := by simp [hdrain] }

theorem drainOk_abortCycle {s : State} (h : DrainOk s) (hh : s.halted = false) : DrainOk (abortCycle s) :=
  drainOk_of_not_halted hh (h.notHalted hh) (by simp)

/-! ### The invariant after each cycle -/

theorem inv_flushCycle {K : Classifier} {s : State} (h : Inv K s) (hr : s.status = .running)
    (hs : shapeOf s = .flush) : Inv K (flushCycle K s) where
  icache := by simpa [flushCycle] using h.icache
  dcache := by simpa [flushCycle] using cacheOk_entering h.dcache K s.slot.execute s.hist.execute
  hist := histOk_of_eq (histOk_shiftAll_bubble h.hist) (by simp [flushCycle]) (by simp [flushCycle])
  missInMem := by simpa [flushCycle] using isMem_of_entering_missed
  drain := drainOk_flushCycle h.drain hr hs

theorem inv_stallCycle {K : Classifier} {s : State} {c : StallKind} (h : Inv K s) (hr : s.status = .running)
    (hs : shapeOf s = .stall c) : Inv K (stallCycle K c s) := by
  have hdrain := drainOk_stallCycle (K := K) h.drain hr hs
  by_cases hfreeze : c = .dMiss ∧ s.dMissInMem = true
  case pos =>
    rw [stallCycle_of_freeze K hfreeze] at hdrain ⊢
    exact {
      icache := h.icache
      dcache := h.dcache
      hist := histOk_freezeMemory h.hist
      missInMem := h.missInMem
      drain := hdrain }
  case neg =>
    rw [stallCycle_of_regular K hfreeze] at hdrain ⊢
    exact {
      icache := by simpa using h.icache
      dcache := by simpa using cacheOk_entering h.dcache K s.slot.execute s.hist.execute
      hist := histOk_of_eq (histOk_holdFetch h.hist) (by simp) (by simp)
      missInMem := by simpa using isMem_of_entering_missed
      drain := hdrain }

theorem inv_drainCycle {K : Classifier} {s : State} (h : Inv K s) (hr : s.status = .running) (hs : shapeOf s = .drain) :
    Inv K (drainCycle K s) where
  icache := by simpa [drainCycle] using h.icache
  dcache := by simpa [drainCycle] using cacheOk_entering h.dcache K s.slot.execute s.hist.execute
  hist := histOk_of_eq (histOk_shiftAll_bubble h.hist) (by simp [drainCycle]) (by simp [drainCycle])
  missInMem := by simpa [drainCycle] using isMem_of_entering_missed
  drain := drainOk_drainCycle h.drain hr hs

theorem inv_fetchCycle {K : Classifier} {s : State} {r : Record} (h : Inv K s) (hr : s.status = .running)
    (hs : shapeOf s = .fetch) : Inv K (fetchCycle K (Fetched.ofWord K r.word) r s) := by
  have heffect := fetchCycle_effect K (Fetched.ofWord K r.word) r s
  exact {
    icache := heffect.icache ▸ cacheOk_access h.icache r.pc false
    dcache := heffect.dcache ▸ cacheOk_entering h.dcache K _ _
    hist := histOk_of_eq (histOk_shiftAll (x := .instr r.word) h.hist fun _ => isMem_of_pushedAddr)
      heffect.slot heffect.hist
    missInMem := by
      rw [heffect.dMissInMem, heffect.slot]
      exact isMem_of_entering_missed
    drain := drainOk_fetchCycle h.drain hr hs }

/-- The transition keeps the invariant, for every classifier and whatever the executor answers. -/
theorem inv_cycleWith {K : Classifier} {s : State} (h : Inv K s) : Inv K (cycleWith K s) := by
  refine cycleWith_cases K s ?ended ?flush ?stall ?drain ?record ?outOfRange
  case ended => exact fun _ => h
  case flush => exact inv_flushCycle h
  case stall => exact fun c => inv_stallCycle h
  case drain => exact inv_drainCycle h
  case record => exact fun r hr hs _ => inv_fetchCycle h hr hs
  case outOfRange =>
    intro _ hs _
    obtain ⟨-, -, hh⟩ := shapeOf_eq_fetch_iff.1 hs
    exact ⟨h.icache, h.dcache, h.hist, h.missInMem, drainOk_abortCycle h.drain hh⟩

/-- Settles O47: `step` is the transition, each of whose cycles keeps the invariant. -/
theorem stepKeepsInvariant : Obligations.StepKeepsInvariant := by
  intro s t h hstep
  exact step_eq_next_iff.1 hstep ▸ inv_cycleWith h

/-! ### Reset (70_reset_and_hazards R311, R313) -/

theorem inv_resetWith {K : Classifier} {ic dc : Cache} (hi : CacheOk ic) (hd : CacheOk dc) (p : Params) :
    Inv K (State.resetWith p ic dc .running) where
  icache := hi
  dcache := hd
  hist st a ha := by
    rw [(resetWith_stages_empty p ic dc .running st).2] at ha
    cases ha
  missInMem h := nomatch h
  drain := drainOk_of_not_halted rfl rfl (by simp [State.resetWith])

theorem valid_of_wellFormed {c : Setup} (h : c.wellFormed = true) :
    validConfig c.icfg = true ∧ validConfig c.dcfg = true :=
  Bool.and_eq_true_iff.1 h

theorem inv_construct {K : Classifier} {c : Setup} (h : c.wellFormed = true) : Inv K (State.construct c) := by
  obtain ⟨hi, hd⟩ := valid_of_wellFormed h
  rw [construct_of_wellFormed h]
  exact inv_resetWith (cacheOk_freshCache hi) (cacheOk_freshCache hd) c.params

/-- Nothing has been counted of fresh caches, and nothing is pending (45_statistics R274). -/
theorem accounts_resetWith (p : Params) (ic dc : CacheConfig) :
    Accounts {} (State.resetWith p (freshCache ic) (freshCache dc) .running) := by
  constructor <;> simp [State.resetWith]

/-- Settles O45: the construction is `resetWith` around fresh caches; no halt is on its way. -/
theorem resetMeetsInvariantAndAccounts : Obligations.ResetMeetsInvariantAndAccounts := by
  intro c h
  refine ⟨inv_construct h, ?haltWord, ?accounts⟩
  case haltWord =>
    rw [construct_of_wellFormed h]
    exact fun hh => nomatch hh
  case accounts =>
    rw [construct_of_wellFormed h]
    exact accounts_resetWith c.params c.icfg c.dcfg

theorem defaultSetup_wellFormed : defaultSetup.wellFormed = true := by decide

/-- Settles O46: the default configuration is a valid one. -/
theorem defaultResetMeetsInvariant : Obligations.DefaultResetMeetsInvariant :=
  ⟨inv_construct defaultSetup_wellFormed, congrArg State.status (construct_of_wellFormed defaultSetup_wellFormed)⟩

theorem construct_of_not_wellFormed {c : Setup} (h : c.wellFormed = false) :
    State.construct c = State.resetWith c.params (absentCache c.icfg) (absentCache c.dcfg) .error :=
  if_neg (Bool.eq_false_iff.1 h)

/-- Settles O44: the construction fails in the status Error, which ends every run (`step_of_ended`). -/
theorem invalidConfigurationNeverStarts : Obligations.InvalidConfigurationNeverStarts := by
  intro c h
  rw [construct_of_not_wellFormed h]
  exact ⟨rfl, rfl, rfl, step_of_ended fun hr => nomatch hr⟩

/-! ### The halt word (R236(c)) -/

/-- A well-formed record with the halt flag brings the halt word (30_encoding R99). -/
theorem kind_of_haltOk {K : Classifier} {r : Record} (h : (Response.record r).wellFormed K = true)
    (hh : r.halt = true) : K.classify r.word = .halt := by
  simp only [Response.wellFormed, Record.wellFormed, Bool.and_eq_true] at h
  obtain ⟨⟨⟨-, hhalt⟩, -⟩, -⟩ := h
  simpa [Record.haltOk, hh] using hhalt

theorem haltWordInPlace_fetchCycle {K : Classifier} {s : State} {r : Record} (hs : shapeOf s = .fetch)
    (hn : (Response.record r).wellFormed K = true) :
    HaltWordInPlace K (fetchCycle K (Fetched.ofWord K r.word) r s) := by
  obtain ⟨-, -, hh⟩ := shapeOf_eq_fetch_iff.1 hs
  have heffect := fetchCycle_effect K (Fetched.ofWord K r.word) r s
  intro hhalted
  rw [heffect.halted, haltedAfter] at hhalted
  have hhalt : r.halt = true := by simpa [hh] using hhalted
  rw [heffect.drain, heffect.slot, drainAfter, if_pos hhalt]
  exact kind_of_haltOk hn hhalt

theorem haltWordInPlace_drainCycle {K : Classifier} {s : State} (h : Inv K s) (hw : HaltWordInPlace K s)
    (hr : s.status = .running) (hs : shapeOf s = .drain) : HaltWordInPlace K (drainCycle K s) := by
  obtain ⟨-, -, hh⟩ := shapeOf_eq_drain_iff.1 hs
  obtain ⟨h1, h4⟩ := h.drain.running hr hh
  intro _
  have hslot : (drainCycle K s).slot = s.slot.shift .bubble := by simp [drainCycle]
  have hdrain : (drainCycle K s).drain = s.drain - 1 := by simp [drainCycle, hh]
  rw [hdrain, hslot, haltSlot_shift h1 h4]
  exact hw hh

/-- The transition keeps the halt word in place, if a fetching cycle gets a well-formed response. -/
theorem haltWordInPlace_cycleWith {K : Classifier} {s : State} (h : Inv K s) (hw : HaltWordInPlace K s)
    (hn : s.halted = false → s.nextResponse.wellFormed K = true) : HaltWordInPlace K (cycleWith K s) := by
  refine cycleWith_cases K s ?ended ?flush ?stall ?drain ?record ?outOfRange
  case ended => exact fun _ => hw
  case flush =>
    intro _ hs hhalted
    have hnot := not_halted_of_flush h.drain hs
    simp [flushCycle, hnot] at hhalted
  case stall =>
    intro c hr hs hhalted
    rw [stallCycle_halted] at hhalted
    obtain ⟨-, hc⟩ := shapeOf_stall.1 hs
    rw [stallCycle_drain, haltSlot_stallCycle K h.drain hr hhalted hc]
    exact hw hhalted
  case drain => exact haltWordInPlace_drainCycle h hw
  case record =>
    intro r _ hs hresp
    obtain ⟨-, -, hh⟩ := shapeOf_eq_fetch_iff.1 hs
    exact haltWordInPlace_fetchCycle hs (hresp ▸ hn hh)
  case outOfRange => exact fun _ _ _ => hw

/-- Settles O48, by `haltWordInPlace_cycleWith`. -/
theorem haltWordStaysInPlace : Obligations.HaltWordStaysInPlace := by
  intro s t h hw hn hstep
  exact step_eq_next_iff.1 hstep ▸ haltWordInPlace_cycleWith h hw fun _ => hn

/-- A run ends in Halt only on the way of the halt, where no response is read (R232). -/
theorem halted_of_becomes_halt {K : Classifier} {s : State} (hr : s.status = .running)
    (ht : (cycleWith K s).status = .halt) : s.halted = true := by
  revert ht
  refine cycleWith_cases (P := fun t => t.status = .halt → s.halted = true) K s
    ?ended ?flush ?stall ?drain ?record ?outOfRange
  case ended => exact fun hend => absurd hr hend
  case flush => intro _ _; simp +contextual [flushCycle, hr]
  case stall => intro c _ _; simp [hr]
  case drain => exact fun _ hs _ => (shapeOf_eq_drain_iff.1 hs).2.2
  case record => intro r _ _ _; simp [fetchCycle, hr]
  case outOfRange => intro _ _ _; simp

/-- At Halt the invariant leaves nothing pending and the halt's word alone, in Writeback. -/
theorem empty_of_halt {K : Classifier} {t : State} (h : Inv K t) (ht : t.status = .halt) :
    t.flush = 0 ∧ t.stall = ⟨0, 0, 0, 0⟩ ∧ t.slot = ⟨.bubble, .bubble, .bubble, .bubble, haltSlot t.drain t.slot⟩ := by
  obtain ⟨hh, hd, hst⟩ := h.drain.ended ht
  obtain ⟨hfetch, hdecode, hexecute, hmemory⟩ := h.drain.younger hh
  have hslot : t.slot = ⟨t.slot.fetch, t.slot.decode, t.slot.execute, t.slot.memory, haltSlot 0 t.slot⟩ := rfl
  rw [hfetch (by omega), hdecode (by omega), hexecute (by omega), hmemory hd] at hslot
  exact ⟨h.drain.noFlush hh, hst, hd ▸ hslot⟩

theorem slot_of_kind_halt {p : Slot} (h : p.kind Classifier.mips = .halt) : p = .instr haltWord := by
  cases p with
  | bubble => cases h
  | instr w => exact congrArg Slot.instr (eq_haltWord_of_kind h)

/-- Settles O49: the invariant after the step says what is left (`empty_of_halt`), and the halt word is in place. -/
theorem haltLeavesEmptyPipeline : Obligations.HaltLeavesEmptyPipeline := by
  intro s t h hw hr hstep ht
  obtain rfl := step_eq_next_iff.1 hstep
  have hinv : Inv Classifier.mips (cycleWith Classifier.mips s) := inv_cycleWith h
  have hhalted := halted_of_becomes_halt hr ht
  have hplace := haltWordInPlace_cycleWith h hw (by simp [hhalted]) (hinv.drain.ended ht).1
  obtain ⟨hflush, hstall, hslot⟩ := empty_of_halt hinv ht
  rw [slot_of_kind_halt hplace] at hslot
  exact ⟨hflush, hstall, hslot⟩

end Sys2Proof.Machine

/-! PROOFS. 45_statistics R274: the accounting identities. What a lookup, a hazard and a fault add to the two sides of
an identity, then each cycle; and the cycle count at Halt (70_reset_and_hazards R322). -/

namespace Sys2Proof.Machine

/-! ### The two sides of an identity, event by event -/

/-- A lookup counts once, and a miss adds its latency to what is to be served (R274 (c), (d)). -/
theorem access_accounts (c : Cache) (a : Word) (x : Bool) :
    (c.access a x).2.hits + (c.access a x).2.misses = c.hits + c.misses + 1 ∧
    (c.access a x).2.misses * c.cfg.missLatencyCycles =
      c.misses * c.cfg.missLatencyCycles + (if (c.access a x).1 then 0 else c.cfg.missLatencyCycles) := by
  obtain ⟨hhits, hmisses⟩ := access_counters c a x
  rw [hhits, hmisses]
  cases (c.access a x).1
  · exact ⟨by simp; omega, by simp [Nat.add_mul]⟩
  · exact ⟨by simp; omega, by simp⟩

/-- The instruction in a slot is looked up when it enters Memory: it is a load or store with an address (R229). -/
def lookedUp (K : Classifier) (p : Slot) (ad : Touched) : Bool := (p.kind K).isMem && ad != .noAddr

theorem executeHasAddr_eq (K : Classifier) (s : State) :
    executeHasAddr K s = lookedUp K s.slot.execute s.hist.execute := rfl

theorem entering_accounts (K : Classifier) (c : Cache) (p : Slot) (ad : Touched) :
    (entering K c p ad).1.hits + (entering K c p ad).1.misses =
      c.hits + c.misses + (if lookedUp K p ad then 1 else 0) ∧
    (entering K c p ad).1.misses * c.cfg.missLatencyCycles =
      c.misses * c.cfg.missLatencyCycles + (entering K c p ad).2.1 := by
  rcases entering_cases K c p ad with ⟨he, hnone⟩ | ⟨w, a, rfl, rfl, hmem, hhit, he⟩ | ⟨w, a, rfl, rfl, hmem, hhit, he⟩
  case inl =>
    have hno : lookedUp K p ad = false := by rcases hnone with h | h <;> simp [lookedUp, h]
    simp [he, hno]
  all_goals
    have hyes : lookedUp K (.instr w) (.addr a) = true := by simp [lookedUp, Slot.kind, hmem]
    simpa [he, hyes, hhit] using access_accounts c a (K.classify w).isStore

/-- The cycles of the rule that fires are those its count stands for (R274 (d)). -/
theorem hazard_accounts (K : Classifier) (w : Word) (s : State) (n : Tally) (p : Params) :
    2 * (n.hazard K w s).loadBranch + p.execLoadBranchStall * (n.hazard K w s).execLoadBranch =
      2 * n.loadBranch + p.execLoadBranchStall * n.execLoadBranch +
        decHazardCycles K p.execLoadBranchStall (K.classify w) (K.srcRegs w) s.slot.fetch s.slot.decode ∧
    (n.hazard K w s).opBranch + (n.hazard K w s).loadOp =
      n.opBranch + n.loadOp + exHazardCycles K (K.classify w) (K.srcRegs w) s.slot.fetch := by
  have hdec := decCycles_hazardOf K p (Fetched.ofWord K w) s.slot.fetch s.slot.decode
  have hex := exCycles_hazardOf K (Fetched.ofWord K w) s.slot.fetch s.slot.decode
  simp only [Fetched.ofWord] at hdec hex
  rw [← hdec, ← hex]
  unfold Tally.hazard
  simp only [Fetched.ofWord]
  cases hazardOf K ⟨w, K.classify w, K.srcRegs w⟩ s.slot.fetch s.slot.decode <;>
    simp [Hazard.decCycles, Hazard.exCycles, Nat.mul_add] <;> omega

/-- The flush cycles that a record's fault arms are those its count stands for (R274 (d)). -/
theorem fault_accounts (r : Record) (s : State) (n : Tally) :
    3 * (n.fault r).overflow + 2 * (n.fault r).illegal + s.flush =
      3 * n.overflow + 2 * n.illegal + flushAfter r s := by
  unfold Tally.fault recordFault flushAfter
  cases r.halt <;> cases r.valid <;> cases r.overflow <;> simp <;> omega

/-! ### What each event leaves of the other counts -/

/-- The lookups of the data cache aside, entering Memory changes no count. -/
theorem enter_eq (K : Classifier) (s : State) (n : Tally) : n.enter K s =
    { n with entered := n.entered +
        if movesExecute s && lookedUp K s.slot.execute s.hist.execute then 1 else 0 } := by
  unfold Tally.enter
  rw [executeHasAddr_eq]
  split <;> rfl

theorem hazard_others (K : Classifier) (w : Word) (s : State) (n : Tally) :
    (n.hazard K w s).normal = n.normal ∧ (n.hazard K w s).overflow = n.overflow ∧
    (n.hazard K w s).illegal = n.illegal ∧ (n.hazard K w s).entered = n.entered := by
  unfold Tally.hazard
  split <;> exact ⟨rfl, rfl, rfl, rfl⟩

theorem fault_others (r : Record) (n : Tally) :
    (n.fault r).normal = n.normal ∧ (n.fault r).entered = n.entered ∧ (n.fault r).opBranch = n.opBranch ∧
    (n.fault r).loadBranch = n.loadBranch ∧ (n.fault r).loadOp = n.loadOp ∧
    (n.fault r).execLoadBranch = n.execLoadBranch := by
  unfold Tally.fault
  split <;> exact ⟨rfl, rfl, rfl, rfl, rfl, rfl⟩

/-! ### The counts after a request, by the shape of its cycle -/

/-- In every cycle but a freeze the content of Execute moves into Memory (R229). -/
theorem movesExecute_of_stall {s : State} {c : StallKind} (hs : shapeOf s = .stall c) :
    movesExecute s = !decide (c = .dMiss ∧ s.dMissInMem = true) := by
  unfold movesExecute
  rw [hs]
  cases c <;> simp

theorem after_ended {K : Classifier} {s : State} (h : s.status ≠ .running) (n : Tally) : n.after K s = n := by
  unfold Tally.after
  cases hr : s.status <;> simp_all

theorem after_flush {K : Classifier} {s : State} (hr : s.status = .running) (hs : shapeOf s = .flush) (n : Tally) :
    n.after K s =
      { n with entered := n.entered + if lookedUp K s.slot.execute s.hist.execute then 1 else 0 } := by
  simp [Tally.after, hr, hs, enter_eq, movesExecute]

theorem after_stall {K : Classifier} {s : State} {c : StallKind} (hr : s.status = .running) (hs : shapeOf s = .stall c)
    (n : Tally) : n.after K s =
      { n with entered := n.entered +
          if ¬ (c = .dMiss ∧ s.dMissInMem = true) ∧ lookedUp K s.slot.execute s.hist.execute then 1 else 0 } := by
  simp [Tally.after, hr, hs, enter_eq, movesExecute_of_stall hs, imp_iff_not_or]

theorem after_drain {K : Classifier} {s : State} (hr : s.status = .running) (hs : shapeOf s = .drain) (n : Tally) :
    n.after K s =
      { n with
        normal := n.normal + 1
        entered := n.entered + if lookedUp K s.slot.execute s.hist.execute then 1 else 0 } := by
  simp [Tally.after, hr, hs, enter_eq, movesExecute]

theorem after_record {K : Classifier} {s : State} {r : Record} (hr : s.status = .running) (hs : shapeOf s = .fetch)
    (hn : s.nextResponse = .record r) (n : Tally) :
    n.after K s = { ((n.enter K s).fault r).hazard K r.word s with normal := n.normal + 1 } := by
  simp [Tally.after, hr, hs, hn, enter_eq]

theorem after_outOfRange {K : Classifier} {s : State} (hr : s.status = .running) (hs : shapeOf s = .fetch)
    (hn : s.nextResponse = .outOfRange) (n : Tally) : n.after K s = n := by
  simp [Tally.after, hr, hs, hn]

/-! ### The pending stall cycles by kind -/

/-- The stall cycles of a kind that are scheduled and not yet served. -/
def StallState.pending (t : StallState) : StallKind → Nat
  | .iMiss => t.iMiss
  | .dMiss => t.dMiss
  | .decHaz => t.decHaz
  | .exHaz => t.exHaz

/-- Cycles of the active kind are pending (R213). -/
theorem pending_of_activeStall {t : StallState} {c : StallKind} (h : activeStall t = some c) : t.pending c ≠ 0 := by
  cases c with
  | iMiss => exact activeStall_iMiss.1 h
  | dMiss => exact (activeStall_dMiss.1 h).2
  | decHaz => exact (activeStall_decHaz.1 h).2.2
  | exHaz => exact (activeStall_exHaz.1 h).2.2.2

theorem pending_add_dMiss {t : StallState} {c : StallKind} (h : t.pending c ≠ 0) (m : Nat) :
    StallState.pending { t with dMiss := t.dMiss + m } c ≠ 0 := by
  cases c with
  | dMiss => exact fun h0 => h (Nat.eq_zero_of_add_eq_zero_right h0)
  | _ => exact h

/-! ### What the operations of a cycle keep of the identities -/

theorem accounts_shiftAll {n : Tally} {s : State} (h : Accounts n s) (x : Slot) (ad : Touched) :
    Accounts n (shiftAll x ad s) :=
  ⟨h.cycles, h.fetches, h.drained, h.lookups, h.iMiss, h.dMiss, h.decHaz, h.exHaz, h.flush⟩

theorem accounts_holdFetch {n : Tally} {s : State} (h : Accounts n s) : Accounts n (holdFetch s) :=
  ⟨h.cycles, h.fetches, h.drained, h.lookups, h.iMiss, h.dMiss, h.decHaz, h.exHaz, h.flush⟩

theorem accounts_freezeMemory {n : Tally} {s : State} (h : Accounts n s) : Accounts n (freezeMemory s) :=
  ⟨h.cycles, h.fetches, h.drained, h.lookups, h.iMiss, h.dMiss, h.decHaz, h.exHaz, h.flush⟩

/-- The lookup is counted, and its miss scheduled (R229, R230). -/
theorem accounts_enterMemory {n : Tally} {s : State} (h : Accounts n s) (K : Classifier) :
    Accounts { n with entered := n.entered + if lookedUp K s.slot.memory s.hist.memory then 1 else 0 }
      (enterMemory K s) := by
  obtain ⟨hlookups, hmisses⟩ := entering_accounts K s.dcache s.slot.memory s.hist.memory
  exact {
    cycles := by simpa using h.cycles
    fetches := by simpa using h.fetches
    drained := by simpa using h.drained
    lookups := by rw [enterMemory_dcache, hlookups, h.lookups]
    iMiss := by simpa using h.iMiss
    dMiss := by
      rw [enterMemory_dcache, enterMemory_stats, enterMemory_stall, entering_cfg, hmisses, ← h.dMiss, Nat.add_assoc]
    decHaz := by simpa using h.decHaz
    exHaz := by simpa using h.exHaz
    flush := by simpa using h.flush }

/-- A flush cycle served is no longer pending, and is counted as a cycle (R212, R233). -/
theorem accounts_serveFlush {n : Tally} {s : State} (h : Accounts n s) (hh : s.halted = false) (hf : s.flush ≠ 0) :
    Accounts n (finishCycle (drainOne (serveFlush s))) := by
  have hcycles := h.cycles
  have hflush := h.flush
  exact {
    cycles := by simp; omega
    fetches := by simpa using h.fetches
    drained := by simpa [hh] using h.drained
    lookups := by simpa using h.lookups
    iMiss := by simpa using h.iMiss
    dMiss := by simpa using h.dMiss
    decHaz := by simpa using h.decHaz
    exHaz := by simpa using h.exHaz
    flush := by simp; omega }

/-- The statistic of a kind takes the unit that its counter loses (R213, R274 (d)). -/
theorem countStall_serve {t : StallState} {c : StallKind} (hc : t.pending c ≠ 0) (st : Stats) :
    (st.countStall c).stallIMiss + (t.serve c).iMiss = st.stallIMiss + t.iMiss ∧
    (st.countStall c).stallDMiss + (t.serve c).dMiss = st.stallDMiss + t.dMiss ∧
    (st.countStall c).stallDec + (t.serve c).decHaz = st.stallDec + t.decHaz ∧
    (st.countStall c).stallEx + (t.serve c).exHaz = st.stallEx + t.exHaz ∧
    (st.countStall c).stallIMiss + (st.countStall c).stallDMiss + (st.countStall c).stallDec +
      (st.countStall c).stallEx = st.stallIMiss + st.stallDMiss + st.stallDec + st.stallEx + 1 ∧
    (st.countStall c).dynInstr = st.dynInstr ∧ (st.countStall c).flushCycles = st.flushCycles := by
  cases c <;> simp only [StallState.pending, Stats.countStall, StallState.serve, true_and, and_true] at hc ⊢ <;> omega

/-- A stall cycle served is no longer pending, and is counted as a cycle (R213, R233). -/
theorem accounts_serveStall {n : Tally} {s : State} (h : Accounts n s) {c : StallKind} (hc : s.stall.pending c ≠ 0) :
    Accounts n (finishCycle (serveStall c s)) := by
  obtain ⟨hiMiss, hdMiss, hdecHaz, hexHaz, hsum, hdynInstr, hflushCycles⟩ := countStall_serve hc s.stats
  have hcycles := h.cycles
  exact {
    cycles := by simp; omega
    fetches := hdynInstr.trans h.fetches
    drained := by
      rw [finishCycle_stats, serveStall_stats, hdynInstr]
      exact h.drained
    lookups := h.lookups
    iMiss := hiMiss.trans h.iMiss
    dMiss := hdMiss.trans h.dMiss
    decHaz := hdecHaz.trans h.decHaz
    exHaz := hexHaz.trans h.exHaz
    flush := by simpa [hflushCycles] using h.flush }

/-- A drain cycle is a normal cycle without an instruction (R232, R274 (e)). -/
theorem accounts_drainOne {n : Tally} {s : State} (h : Accounts n s) (hh : s.halted = true) (h1 : 1 ≤ s.drain)
    (h4 : s.drain ≤ 4) : Accounts { n with normal := n.normal + 1 } (finishCycle (drainOne s)) := by
  have hcycles := h.cycles
  have hdrained := h.drained
  rw [if_pos hh] at hdrained
  exact {
    cycles := by simp; omega
    fetches := by simpa using h.fetches
    drained := by simp [hh]; omega
    lookups := by simpa using h.lookups
    iMiss := by simpa using h.iMiss
    dMiss := by simpa using h.dMiss
    decHaz := by simpa using h.decHaz
    exHaz := by simpa using h.exHaz
    flush := by simpa using h.flush }

/-! ### Each cycle keeps the identities -/

theorem accounts_flushCycle {K : Classifier} {n : Tally} {s : State} (h : Accounts n s) (hinv : Inv K s)
    (hr : s.status = .running) (hs : shapeOf s = .flush) : Accounts (n.after K s) (flushCycle K s) := by
  rw [after_flush hr hs]
  refine accounts_serveFlush (accounts_enterMemory (accounts_shiftAll h .bubble .noAddr) K) ?halted ?flush
  case halted => simp [not_halted_of_flush hinv.drain hs]
  case flush => simpa using shapeOf_flush.1 hs

theorem accounts_stallCycle {K : Classifier} {n : Tally} {s : State} {c : StallKind} (h : Accounts n s)
    (hr : s.status = .running) (hs : shapeOf s = .stall c) : Accounts (n.after K s) (stallCycle K c s) := by
  obtain ⟨-, hc⟩ := shapeOf_stall.1 hs
  rw [after_stall hr hs]
  by_cases hfreeze : c = .dMiss ∧ s.dMissInMem = true
  case pos =>
    rw [stallCycle_of_freeze K hfreeze, if_neg (fun hmoves => hmoves.1 hfreeze)]
    exact accounts_serveStall (accounts_freezeMemory h) (pending_of_activeStall hc)
  case neg =>
    rw [stallCycle_of_regular K hfreeze]
    simp only [hfreeze, not_false_eq_true, true_and]
    have hmoved := accounts_enterMemory (accounts_holdFetch h) K
    rw [holdFetch_slot, holdFetch_hist, Pipe.hold_memory, Pipe.hold_memory] at hmoved
    refine accounts_serveStall hmoved ?_
    rw [enterMemory_stall]
    exact pending_add_dMiss (pending_of_activeStall hc) _

theorem accounts_drainCycle {K : Classifier} {n : Tally} {s : State} (h : Accounts n s) (hinv : Inv K s)
    (hr : s.status = .running) (hs : shapeOf s = .drain) : Accounts (n.after K s) (drainCycle K s) := by
  obtain ⟨-, -, hh⟩ := shapeOf_eq_drain_iff.1 hs
  obtain ⟨h1, h4⟩ := hinv.drain.running hr hh
  rw [after_drain hr hs]
  refine accounts_drainOne (accounts_enterMemory (accounts_shiftAll h .bubble .noAddr) K) ?halted ?least ?most
  case halted => simpa using hh
  case least => simpa using h1
  case most => simpa using h4

/-- The counts after a fetching cycle. -/
theorem after_record_counts {K : Classifier} {s : State} {r : Record} (hr : s.status = .running)
    (hs : shapeOf s = .fetch) (hn : s.nextResponse = .record r) (n : Tally) :
    (n.after K s).normal = n.normal + 1 ∧
    (n.after K s).entered = n.entered + (if lookedUp K s.slot.execute s.hist.execute then 1 else 0) ∧
    3 * (n.after K s).overflow + 2 * (n.after K s).illegal + s.flush =
      3 * n.overflow + 2 * n.illegal + flushAfter r s ∧
    2 * (n.after K s).loadBranch + s.params.execLoadBranchStall * (n.after K s).execLoadBranch =
      2 * n.loadBranch + s.params.execLoadBranchStall * n.execLoadBranch +
        decHazardCycles K s.params.execLoadBranchStall (K.classify r.word) (K.srcRegs r.word) s.slot.fetch
          s.slot.decode ∧
    (n.after K s).opBranch + (n.after K s).loadOp =
      n.opBranch + n.loadOp + exHazardCycles K (K.classify r.word) (K.srcRegs r.word) s.slot.fetch := by
  have henter := enter_eq K s n
  rw [show movesExecute s = true by simp [movesExecute, hs], Bool.true_and] at henter
  have hfault := fault_accounts r s (n.enter K s)
  obtain ⟨-, hentered, hopBranch, hloadBranch, hloadOp, hexecLoad⟩ := fault_others r (n.enter K s)
  obtain ⟨hdec, hex⟩ := hazard_accounts K r.word s ((n.enter K s).fault r) s.params
  obtain ⟨-, hoverflow, hillegal, hkept⟩ := hazard_others K r.word s ((n.enter K s).fault r)
  rw [after_record hr hs hn]
  refine ⟨rfl, ?entered, ?fault, ?dec, ?ex⟩
  case entered => exact hkept.trans (hentered.trans (congrArg Tally.entered henter))
  case fault =>
    rw [hoverflow, hillegal, hfault, henter]
  case dec => rw [hdec, hloadBranch, hexecLoad, henter]
  case ex => rw [hex, hopBranch, hloadOp, henter]

theorem accounts_fetchCycle {K : Classifier} {n : Tally} {s : State} {r : Record} (h : Accounts n s)
    (hr : s.status = .running) (hs : shapeOf s = .fetch) (hn : s.nextResponse = .record r) :
    Accounts (n.after K s) (fetchCycle K (Fetched.ofWord K r.word) r s) := by
  obtain ⟨-, -, hh⟩ := shapeOf_eq_fetch_iff.1 hs
  have heffect := fetchCycle_effect K (Fetched.ofWord K r.word) r s
  obtain ⟨hnormal, hentered, hfault, hdec, hex⟩ := after_record_counts hr hs hn n
  obtain ⟨hilookups, himisses⟩ := access_accounts s.icache r.pc false
  obtain ⟨hdlookups, hdmisses⟩ := entering_accounts K s.dcache s.slot.execute s.hist.execute
  obtain ⟨hcycles, hfetches, hdrained, hlookups, hiMiss, hdMiss, hdecHaz, hexHaz, hflush⟩ := h
  simp only [hh, Bool.false_eq_true, if_false] at hdrained
  exact {
    cycles := by rw [heffect.cycle, heffect.stats, hnormal]; dsimp only; omega
    fetches := by rw [heffect.stats, heffect.icache, hilookups, ← hfetches]
    drained := by
      rw [heffect.stats, heffect.halted, heffect.drain, hnormal, haltedAfter, drainAfter, hh]
      cases r.halt <;> simp [hdrained]
    lookups := by rw [heffect.dcache, hdlookups, hlookups, hentered]
    iMiss := by rw [heffect.stats, heffect.iMiss, heffect.icache, access_cfg, himisses, ← hiMiss, Nat.add_assoc]
    dMiss := by rw [heffect.stats, heffect.dMiss, heffect.dcache, entering_cfg, hdmisses, ← hdMiss, Nat.add_assoc]
    decHaz := by rw [heffect.stats, heffect.decHaz, heffect.params, hdec, ← hdecHaz, Nat.add_assoc]; rfl
    exHaz := by rw [heffect.stats, heffect.exHaz, hex, ← hexHaz, Nat.add_assoc]; rfl
    flush := by rw [heffect.stats, heffect.flush]; dsimp only; omega }

/-- The transition keeps the accounts, from every state that meets the invariant. -/
theorem accounts_cycleWith {K : Classifier} {n : Tally} {s : State} (hinv : Inv K s) (h : Accounts n s) :
    Accounts (n.after K s) (cycleWith K s) := by
  refine cycleWith_cases K s ?ended ?flush ?stall ?drain ?record ?outOfRange
  case ended => exact fun hend => (after_ended hend n).symm ▸ h
  case flush => exact accounts_flushCycle h hinv
  case stall => exact fun c => accounts_stallCycle h
  case drain => exact accounts_drainCycle h hinv
  case record => exact fun r => accounts_fetchCycle h
  case outOfRange =>
    intro hr hs hn
    rw [after_outOfRange hr hs hn]
    exact ⟨h.cycles, h.fetches, h.drained, h.lookups, h.iMiss, h.dMiss, h.decHaz, h.exHaz, h.flush⟩

/-- Settles O50: `step` is the transition, each of whose cycles keeps the identities. -/
theorem stepKeepsAccounts : Obligations.StepKeepsAccounts := by
  intro n s t hinv h hstep
  exact step_eq_next_iff.1 hstep ▸ accounts_cycleWith hinv h

/-! ### The cycle count at Halt (R274 (e), 70_reset_and_hazards R322) -/

/-- Settles O51: at Halt nothing is pending (`empty_of_halt`) and all drain cycles are done, so the sums agree. -/
theorem cycleCountAtHalt : Obligations.CycleCountAtHalt := by
  intro n s hinv h hhalt hoff
  obtain ⟨hflush, hstall, -⟩ := empty_of_halt hinv hhalt
  obtain ⟨hhalted, hdrain, -⟩ := hinv.drain.ended hhalt
  obtain ⟨hcycles, -, hdrained, -, hiMiss, hdMiss, hdecHaz, hexHaz, hflushCycles⟩ := h
  simp only [hhalted, hdrain, hstall, hflush, hoff, if_true, Nat.zero_mul, Nat.add_zero, Nat.sub_zero] at *
  omega

end Sys2Proof.Machine

/-! PROOFS. 44_pipeline_engine, 43_cache_model, 70_reset_and_hazards: what every step keeps or changes of the
configuration (R313), of each cache (R195), of the emitted snapshots (R231), of the order of the instructions (R236(e));
and the bounded runs made of steps (R234). -/

namespace Sys2Proof.Machine

/-! ### The whole cycles, field by field where their shapes agree -/

theorem stallCycle_dcache (K : Classifier) (c : StallKind) (s : State) :
    (stallCycle K c s).dcache = s.dcache ∨
    (stallCycle K c s).dcache = (entering K s.dcache s.slot.execute s.hist.execute).1 := by
  unfold stallCycle
  split
  · exact .inl rfl
  · right; simp

@[simp] theorem stallCycle_params (K : Classifier) (c : StallKind) (s : State) :
    (stallCycle K c s).params = s.params := by
  unfold stallCycle; split <;> simp
@[simp] theorem stallCycle_icache (K : Classifier) (c : StallKind) (s : State) :
    (stallCycle K c s).icache = s.icache := by
  unfold stallCycle; split <;> simp

theorem cycleWith_params (K : Classifier) (s : State) : (cycleWith K s).params = s.params := by
  refine cycleWith_cases (P := fun t => t.params = s.params) K s ?ended ?flush ?stall ?drain ?record ?outOfRange
  case ended => exact fun _ => rfl
  case flush => intro _ _; simp [flushCycle]
  case stall => intro c _ _; simp
  case drain => intro _ _; simp [drainCycle]
  case record => exact fun r _ _ _ => (fetchCycle_effect K _ r s).params
  case outOfRange => exact fun _ _ _ => rfl

/-! ### The caches (R195) -/

/-- The instruction cache changes by the lookup of the fetched record's address only (R228). -/
theorem cycleWith_icache (K : Classifier) (s : State) :
    (cycleWith K s).icache = s.icache ∨
    ∃ r, shapeOf s = .fetch ∧ s.nextResponse = .record r ∧
      (cycleWith K s).icache = (s.icache.access r.pc false).2 := by
  refine cycleWith_cases (P := fun t => t.icache = s.icache ∨
    ∃ r, shapeOf s = .fetch ∧ s.nextResponse = .record r ∧ t.icache = (s.icache.access r.pc false).2) K s
    ?ended ?flush ?stall ?drain ?record ?outOfRange
  case ended => exact fun _ => .inl rfl
  case flush => intro _ _; left; simp [flushCycle]
  case stall => intro c _ _; left; simp
  case drain => intro _ _; left; simp [drainCycle]
  case record => exact fun r _ hs hn => .inr ⟨r, hs, hn, (fetchCycle_effect K _ r s).icache⟩
  case outOfRange => exact fun _ _ _ => .inl rfl

/-- The data cache changes by what enters Memory only (R229). -/
theorem cycleWith_dcache (K : Classifier) (s : State) :
    (cycleWith K s).dcache = s.dcache ∨
    (cycleWith K s).dcache = (entering K s.dcache s.slot.execute s.hist.execute).1 := by
  refine cycleWith_cases (P := fun t => t.dcache = s.dcache ∨
    t.dcache = (entering K s.dcache s.slot.execute s.hist.execute).1) K s
    ?ended ?flush ?stall ?drain ?record ?outOfRange
  case ended => exact fun _ => .inl rfl
  case flush => intro _ _; right; simp [flushCycle]
  case stall => exact fun c _ _ => stallCycle_dcache K c s
  case drain => intro _ _; right; simp [drainCycle]
  case record => exact fun r _ _ _ => .inr (fetchCycle_effect K _ r s).dcache
  case outOfRange => exact fun _ _ _ => .inl rfl

/-- What enters Memory changes the data cache by its own lookup only. -/
theorem entering_cache (K : Classifier) (c : Cache) (p : Slot) (ad : Touched) :
    (entering K c p ad).1 = c ∨
    ∃ w a, p = .instr w ∧ ad = .addr a ∧ (K.classify w).isMem = true ∧
      (entering K c p ad).1 = (c.access a (K.classify w).isStore).2 := by
  rcases entering_cases K c p ad with ⟨he, -⟩ | ⟨w, a, hp, ha, hmem, -, he⟩ | ⟨w, a, hp, ha, hmem, -, he⟩
  case inl => exact .inl (congrArg Prod.fst he)
  case inr.inl => exact .inr ⟨w, a, hp, ha, hmem, congrArg Prod.fst he⟩
  case inr.inr => exact .inr ⟨w, a, hp, ha, hmem, congrArg Prod.fst he⟩

/-- Settles O42, by `cycleWith_icache` and `cycleWith_dcache`. -/
theorem eachCacheChangesOnlyByItsOwnLookups : Obligations.EachCacheChangesOnlyByItsOwnLookups := by
  intro s t hstep
  obtain rfl := step_eq_next_iff.1 hstep
  refine ⟨cycleWith_icache _ s, ?_⟩
  rcases cycleWith_dcache Classifier.mips s with hd | hd
  · exact .inl hd
  · rw [hd]
    exact entering_cache Classifier.mips s.dcache s.slot.execute s.hist.execute

/-- Settles O52: the parameters are kept, and a cache's lookup keeps its configuration and its number of sets. -/
theorem configurationNeverChanges : Obligations.ConfigurationNeverChanges := by
  intro s t hstep
  obtain ⟨hicache, hdcache⟩ := eachCacheChangesOnlyByItsOwnLookups s t hstep
  have hi : t.icache.cfg = s.icache.cfg ∧ t.icache.sets.length = s.icache.sets.length := by
    rcases hicache with h | ⟨r, -, -, h⟩ <;> rw [h]
    · exact ⟨rfl, rfl⟩
    · exact ⟨access_cfg _ _ _, access_sets_length _ _ _⟩
  have hd : t.dcache.cfg = s.dcache.cfg ∧ t.dcache.sets.length = s.dcache.sets.length := by
    rcases hdcache with h | ⟨w, a, -, -, -, h⟩ <;> rw [h]
    · exact ⟨rfl, rfl⟩
    · exact ⟨access_cfg _ _ _, access_sets_length _ _ _⟩
  exact ⟨step_eq_next_iff.1 hstep ▸ cycleWith_params _ s, hi.1, hd.1, hi.2, hd.2⟩

/-! ### The cycle count and the snapshots (R231, R233, R217) -/

/-- The state after a completed cycle from `s`: counted, with one snapshot more, of the slots after it. -/
def CompletedFrom (s t : State) : Prop := t.cycle = s.cycle + 1 ∧ t.trace = s.trace ++ [⟨t.cycle, t.slot⟩]

theorem completedFrom_finishCycle {s m : State} (hcycle : m.cycle = s.cycle) (htrace : m.trace = s.trace) :
    CompletedFrom s (finishCycle m) :=
  ⟨congrArg (· + 1) hcycle, by rw [finishCycle_trace, htrace]; rfl⟩

theorem completedFrom_flushCycle (K : Classifier) (s : State) : CompletedFrom s (flushCycle K s) :=
  completedFrom_finishCycle (by simp) (by simp)

theorem completedFrom_stallCycle (K : Classifier) (c : StallKind) (s : State) :
    CompletedFrom s (stallCycle K c s) := by
  unfold stallCycle
  split <;> exact completedFrom_finishCycle (by simp) (by simp)

theorem completedFrom_drainCycle (K : Classifier) (s : State) : CompletedFrom s (drainCycle K s) :=
  completedFrom_finishCycle (by simp) (by simp)

theorem completedFrom_fetchCycle (K : Classifier) (f : Fetched) (r : Record) (s : State) :
    CompletedFrom s (fetchCycle K f r s) :=
  completedFrom_finishCycle (by simp) (by simp)

/-- A request in Running completes a cycle, but for the abort. -/
theorem cycleWith_completes {K : Classifier} {s : State} (hr : s.status = .running) :
    (shapeOf s = .fetch ∧ s.nextResponse = .outOfRange ∧ cycleWith K s = abortCycle s) ∨
    (¬ (shapeOf s = .fetch ∧ s.nextResponse = .outOfRange) ∧ CompletedFrom s (cycleWith K s)) := by
  refine cycleWith_cases (P := fun t => (shapeOf s = .fetch ∧ s.nextResponse = .outOfRange ∧ t = abortCycle s) ∨
    (¬ (shapeOf s = .fetch ∧ s.nextResponse = .outOfRange) ∧ CompletedFrom s t)) K s
    ?ended ?flush ?stall ?drain ?record ?outOfRange
  case ended => exact fun hend => absurd hr hend
  case flush => exact fun _ hs => .inr ⟨by simp [hs], completedFrom_flushCycle K s⟩
  case stall => exact fun c _ hs => .inr ⟨by simp [hs], completedFrom_stallCycle K c s⟩
  case drain => exact fun _ hs => .inr ⟨by simp [hs], completedFrom_drainCycle K s⟩
  case record => exact fun r _ _ hn => .inr ⟨by simp [hn], completedFrom_fetchCycle K _ r s⟩
  case outOfRange => exact fun _ hs hn => .inl ⟨hs, hn, rfl⟩

/-- Settles O54, by `cycleWith_completes`. -/
theorem eachCompletedCycleEmitsOneSnapshot : Obligations.EachCompletedCycleEmitsOneSnapshot := by
  intro s t hr hstep
  obtain rfl := step_eq_next_iff.1 hstep
  rcases cycleWith_completes (K := Classifier.mips) hr with ⟨hs, hn, he⟩ | ⟨hnot, hcompleted⟩
  · rw [if_pos ⟨hs, hn⟩, he]
    exact ⟨rfl, rfl, rfl, rfl⟩
  · rw [if_neg hnot]
    exact hcompleted

/-! ### The order of the instructions (R236(e)) -/

/-- The slots from the oldest instruction to the youngest. -/
def Pipe.oldestFirst (p : Pipe Slot) : List Slot := [p.writeback, p.memory, p.execute, p.decode, p.fetch]

/-- The words that do not leave the pipeline in this cycle, in the same order. -/
def staying (p : Pipe Slot) : List Word := wordsOf [p.memory, p.execute, p.decode, p.fetch]

@[simp] theorem wordsOf_nil : wordsOf [] = [] := rfl
@[simp] theorem wordsOf_bubble (l : List Slot) : wordsOf (.bubble :: l) = wordsOf l := rfl
@[simp] theorem wordsOf_instr (w : Word) (l : List Slot) : wordsOf (.instr w :: l) = w :: wordsOf l := rfl

theorem wordsOf_append (l m : List Slot) : wordsOf (l ++ m) = wordsOf l ++ wordsOf m := List.filterMap_append

theorem wordsOf_shift (p : Pipe Slot) (x : Slot) : wordsOf (p.shift x).oldestFirst = staying p ++ wordsOf [x] :=
  wordsOf_append [p.memory, p.execute, p.decode, p.fetch] [x]

/-- A Bubble put between the words, in Execute or in Decode, does not change their order (R214, R238). -/
theorem wordsOf_hold (p : Pipe Slot) (b : BubbleStage) : wordsOf (p.hold b .bubble).oldestFirst = staying p := by
  cases b with
  | execute =>
    calc wordsOf (p.hold .execute .bubble).oldestFirst
      _ = wordsOf [p.memory, p.execute] ++ wordsOf (.bubble :: [p.decode, p.fetch]) :=
          wordsOf_append [p.memory, p.execute] (.bubble :: [p.decode, p.fetch])
      _ = staying p := (wordsOf_append [p.memory, p.execute] [p.decode, p.fetch]).symm
  | decode =>
    calc wordsOf (p.hold .decode .bubble).oldestFirst
      _ = wordsOf [p.memory, p.execute, p.decode] ++ wordsOf (.bubble :: [p.fetch]) :=
          wordsOf_append [p.memory, p.execute, p.decode] (.bubble :: [p.fetch])
      _ = staying p := (wordsOf_append [p.memory, p.execute, p.decode] [p.fetch]).symm

theorem wordsOf_freeze (p : Pipe Slot) : wordsOf (p.freeze .bubble).oldestFirst = staying p := rfl

theorem wordsOf_stallCycle (K : Classifier) (c : StallKind) (s : State) :
    wordsOf (stallCycle K c s).slot.oldestFirst = staying s.slot := by
  unfold stallCycle
  split
  next => exact wordsOf_freeze s.slot
  next => simp [wordsOf_hold]

/-- After a completed cycle the words are those that stayed, and at most the record's behind them. -/
theorem cycleWith_words (K : Classifier) (s : State) :
    ((cycleWith K s).cycle = s.cycle ∧ (cycleWith K s).slot = s.slot) ∨
    ((cycleWith K s).cycle = s.cycle + 1 ∧ ∃ new,
      wordsOf (cycleWith K s).slot.oldestFirst = staying s.slot ++ new ∧
      (new = [] ∨ ∃ r, shapeOf s = .fetch ∧ s.nextResponse = .record r ∧ new = [r.word])) := by
  refine cycleWith_cases (P := fun t => (t.cycle = s.cycle ∧ t.slot = s.slot) ∨ (t.cycle = s.cycle + 1 ∧ ∃ new,
      wordsOf t.slot.oldestFirst = staying s.slot ++ new ∧
      (new = [] ∨ ∃ r, shapeOf s = .fetch ∧ s.nextResponse = .record r ∧ new = [r.word]))) K s
    ?ended ?flush ?stall ?drain ?record ?outOfRange
  case ended => exact fun _ => .inl ⟨rfl, rfl⟩
  case flush =>
    refine fun _ _ => .inr ⟨(completedFrom_flushCycle K s).1, [], ?_, .inl rfl⟩
    simp [flushCycle, wordsOf_shift]
  case stall =>
    refine fun c _ _ => .inr ⟨(completedFrom_stallCycle K c s).1, [], ?_, .inl rfl⟩
    rw [wordsOf_stallCycle, List.append_nil]
  case drain =>
    refine fun _ _ => .inr ⟨(completedFrom_drainCycle K s).1, [], ?_, .inl rfl⟩
    simp [drainCycle, wordsOf_shift]
  case record =>
    refine fun r _ hs hn => .inr ⟨(completedFrom_fetchCycle K _ r s).1, [r.word], ?_, .inr ⟨r, hs, hn, rfl⟩⟩
    simp [fetchCycle, wordsOf_shift, Fetched.ofWord]
  case outOfRange => exact fun _ _ _ => .inl ⟨rfl, rfl⟩

/-- Settles O55, by `cycleWith_words`. -/
theorem instructionsNeverOvertake : Obligations.InstructionsNeverOvertake := by
  intro s t hstep
  obtain rfl := step_eq_next_iff.1 hstep
  exact cycleWith_words Classifier.mips s

/-! ### Bounded runs (R234) -/

theorem runCycles_of_ended {s : State} (h : s.status ≠ .running) (n : Nat) :
    runCycles n s = .next (s.status.result, s) := by
  cases n with
  | zero => rfl
  | succ n => cases hs : s.status <;> simp_all [runCycles, Status.result]

theorem runCycles_succ {s : State} (h : s.status = .running) (n : Nat) :
    runCycles (n + 1) s = runCycles n (cycleWith Classifier.mips s) := by
  simp only [runCycles, h, stepIsTheEngineTransition s]

/-- What a request in Running does to the cycle count: it raises it, unless it ends the run. -/
theorem cycleWith_cycle {K : Classifier} {s : State} (hr : s.status = .running) :
    (cycleWith K s).cycle = s.cycle + 1 ∨
    ((cycleWith K s).cycle = s.cycle ∧ (cycleWith K s).status ≠ .running) := by
  rcases cycleWith_completes (K := K) hr with ⟨-, -, he⟩ | ⟨-, hcompleted⟩
  · rw [he]
    exact .inr ⟨rfl, by simp⟩
  · exact .inl hcompleted.1

/-- Where a bounded run ends: with the result of its status, all cycles done if it is still Running. -/
theorem exists_runCycles (n : Nat) (s : State) : ∃ t, runCycles n s = .next (t.status.result, t) ∧
    (t.status = .running → t.cycle = s.cycle + n) ∧ t.cycle ≤ s.cycle + n := by
  induction n generalizing s with
  | zero => exact ⟨s, rfl, fun _ => rfl, le_rfl⟩
  | succ n ih =>
    by_cases hr : s.status = .running
    case neg => exact ⟨s, runCycles_of_ended hr _, fun h => absurd h hr, Nat.le_add_right _ _⟩
    obtain ⟨t, hrun, hall, hmost⟩ := ih (cycleWith Classifier.mips s)
    rw [← runCycles_succ hr] at hrun
    rcases cycleWith_cycle (K := Classifier.mips) hr with hc | ⟨hc, hend⟩
    · exact ⟨t, hrun, fun h => by rw [hall h, hc]; omega, by omega⟩
    · refine ⟨t, hrun, fun h => ?_, by omega⟩
      rw [runCycles_succ hr, runCycles_of_ended hend] at hrun
      obtain rfl := (Prod.mk.inj (Host.Outcome.next.inj hrun)).2
      exact absurd h hend

/-- Settles O56: the result of a run is that of the status it ends in (`exists_runCycles`). -/
theorem boundedRunReturnsItsResult : Obligations.BoundedRunReturnsItsResult := by
  intro n s
  obtain ⟨t, hrun, hall, hmost⟩ := exists_runCycles n s
  have hresult : (t.status.result = .success ↔ t.status = .running) ∧ (t.status.result = .halt ↔ t.status = .halt) ∧
      (t.status.result = .error ↔ t.status = .error) := by
    cases t.status <;> simp [Status.result]
  exact ⟨_, t, hrun, hresult.1, hresult.2.1, hresult.2.2, fun h => hall (hresult.1.1 h), hmost⟩

/-- Settles O57, by induction on the first run: it ends at once, or both runs begin with the same cycle. -/
theorem boundedRunsCompose : Obligations.BoundedRunsCompose := by
  intro m n
  induction m with
  | zero =>
    intro s t r h
    cases h
    rw [Nat.zero_add]
  | succ m ih =>
    intro s t r h
    by_cases hr : s.status = .running
    · rw [runCycles_succ hr] at h
      rw [Nat.add_right_comm, runCycles_succ hr]
      exact ih _ t r h
    · rw [runCycles_of_ended hr] at h
      cases h
      rw [runCycles_of_ended hr, runCycles_of_ended hr]

end Sys2Proof.Machine

/-! PROOFS. The external collaborators: the orientation executor keeps the executor's duties (30_encoding R99), and the
memory store reads back what was written, most significant byte first (20_memory R61, R63). -/

namespace Sys2Proof.Machine

/-! ### The orientation executor (10_state R38, 30_encoding R99) -/

/-- The effects that an instruction of the kind can have on the executor; `effect_suits` ties it to the model. -/
def Effect.suits (k : OpKind) : Effect → Bool
  | .write _ _ | .overflow => k.isArithmetic
  | .load _ _ _ => k == .load
  | .store _ _ _ => k == .store
  | .goto _ | .call _ _ => k == .branch || k == .jump || k == .jumpRegister
  | .stop => k == .halt

theorem trapping_suits {k : OpKind} (h : k.isArithmetic = true) (o : Bool) (r : RegNum) (v : Word) :
    (trapping o r v).suits k = true := by
  cases o <;> exact h

/-- The effect of an instruction is one of its kind. -/
theorem effect_suits (e : Executor) (i : Instr) : (e.effect i).suits i.kind = true := by
  cases i with
  | add | sub | addi => exact trapping_suits rfl _ _ _
  | _ => rfl

/-- The duties of a record, by the kind of its word (R99). -/
theorem recordOf_wellFormed {e : Executor} {w : Word} {a : Touched} {valid overflow halt : Bool}
    (hvalid : valid = (classifyWord w != .illegal)) (hhalt : halt = (classifyWord w == .halt))
    (hoverflow : overflow = true → (classifyWord w).isArithmetic = true)
    (haddr : (a != .noAddr) = (classifyWord w).isMem) :
    (e.recordOf w a valid overflow halt).wellFormed Classifier.mips = true := by
  subst hvalid hhalt
  cases overflow <;>
    simp_all [Executor.recordOf, Response.wellFormed, Record.wellFormed, Record.validOk, Record.haltOk,
      Record.overflowOk, Record.addrOk, Classifier.mips]

theorem duties_of_isArithmetic {k : OpKind} (h : k.isArithmetic = true) :
    true = (k != .illegal) ∧ false = (k == .halt) ∧ false = k.isMem := by
  revert h
  cases k <;> decide

theorem duties_of_isMem {k : OpKind} (h : k.isMem = true) : true = (k != .illegal) ∧ false = (k == .halt) := by
  revert h
  cases k <;> decide

theorem duties_of_control {k : OpKind} (h : (k == .branch || k == .jump || k == .jumpRegister) = true) :
    true = (k != .illegal) ∧ false = (k == .halt) ∧ false = k.isMem := by
  revert h
  cases k <;> decide

/-- An effect that suits the kind of the word is reported as the duties ask. -/
theorem apply_wellFormed {e : Executor} {w : Word} {x : Effect} (h : x.suits (classifyWord w) = true) :
    (e.apply w x).1.wellFormed Classifier.mips = true := by
  cases x with
  | write r v =>
    obtain ⟨hvalid, hhalt, haddr⟩ := duties_of_isArithmetic h
    exact recordOf_wellFormed hvalid hhalt nofun haddr
  | overflow =>
    obtain ⟨hvalid, hhalt, haddr⟩ := duties_of_isArithmetic h
    exact recordOf_wellFormed hvalid hhalt (fun _ => h) haddr
  | load r ea n =>
    have hmem : (classifyWord w).isMem = true := Bool.or_eq_true_iff.2 (.inl h)
    obtain ⟨hvalid, hhalt⟩ := duties_of_isMem hmem
    rw [Executor.apply]
    split
    · exact recordOf_wellFormed hvalid hhalt nofun hmem.symm
    · rfl
  | store ea n v =>
    have hmem : (classifyWord w).isMem = true := Bool.or_eq_true_iff.2 (.inr h)
    obtain ⟨hvalid, hhalt⟩ := duties_of_isMem hmem
    rw [Executor.apply]
    split
    · exact recordOf_wellFormed hvalid hhalt nofun hmem.symm
    · rfl
  | goto t =>
    obtain ⟨hvalid, hhalt, haddr⟩ := duties_of_control h
    exact recordOf_wellFormed hvalid hhalt nofun haddr
  | call t l =>
    obtain ⟨hvalid, hhalt, haddr⟩ := duties_of_control h
    exact recordOf_wellFormed hvalid hhalt nofun haddr
  | stop =>
    have hk : classifyWord w = .halt := beq_iff_eq.1 h
    apply recordOf_wellFormed <;> rw [hk] <;> decide

/-- Settles O58: an access outside the window is reported in place of a record, an Illegal word as invalid, and any
other word with the effect of its instruction (`effect_suits`). -/
theorem orientationExecutorKeepsItsDuties : Obligations.OrientationExecutorKeepsItsDuties := by
  intro e
  unfold Executor.executeNext
  split
  next => rfl
  next w _ =>
    split
    next i hi =>
      refine apply_wellFormed ?_
      rw [classifyWord_of_decode hi]
      exact effect_suits e i
    next err hi =>
      have hill : classifyWord w = .illegal := (classifyWord_illegal_iff w).2 ⟨err, hi⟩
      apply recordOf_wellFormed <;> rw [hill] <;> decide

/-! ### The memory store (20_memory R61, R63) -/

/-- A quotient by one byte more is that of the value without its lowest byte. -/
theorem div_pow_byte_succ (v j : Nat) : v / 2 ^ (8 * (j + 1)) = v / 256 / 2 ^ (8 * j) := by
  rw [Nat.div_div_eq_div_mul, Nat.mul_add, pow_add, Nat.mul_comm]
  rfl

theorem read_writeBytes_outside {n a v b : Nat} {m : Memory} (h : m.wf) (hb : b < a ∨ a + n ≤ b) :
    (m.writeBytes a n v).read b = m.read b := by
  induction n generalizing m v with
  | zero => rfl
  | succ n ih =>
    rw [Memory.writeBytes, ih (wf_write h) (by omega), read_write h, if_neg (by omega)]

/-- Byte `k` of `n` written is the `k`-th most significant one (R63). -/
theorem read_writeBytes {n k : Nat} (hk : k < n) {a v : Nat} {m : Memory} (h : m.wf) :
    (m.writeBytes a n v).read (a + k) = BitVec.ofNat 8 (v / 2 ^ (8 * (n - 1 - k))) := by
  induction n generalizing m v with
  | zero => omega
  | succ n ih =>
    rw [Memory.writeBytes]
    by_cases hlast : k = n
    · subst hlast
      rw [read_writeBytes_outside (wf_write h) (by omega), read_write h, if_pos rfl]
      simp
    · rw [ih (by omega) (wf_write h), show n + 1 - 1 - k = (n - 1 - k) + 1 by omega, div_pow_byte_succ]

/-- Bytes that are those of a value, most significant first, read as its low bytes. -/
theorem readBytes_of_bytes {n a v : Nat} {m : Memory}
    (h : ∀ k < n, m.read (a + k) = BitVec.ofNat 8 (v / 2 ^ (8 * (n - 1 - k)))) :
    m.readBytes a n = v % 2 ^ (8 * n) := by
  induction n generalizing v with
  | zero => simp [Memory.readBytes, Nat.mod_one]
  | succ n ih =>
    have hhigh : m.readBytes a n = v / 256 % 2 ^ (8 * n) := by
      refine ih fun k hk => ?_
      rw [h k (by omega), show n + 1 - 1 - k = (n - 1 - k) + 1 by omega, div_pow_byte_succ]
    have hlow : (m.read (a + n)).toNat = v % 256 := by
      rw [h n (by omega)]
      simp
    rw [Memory.readBytes, hhigh, hlow, Nat.mul_add, Nat.mul_one, Nat.pow_add, Nat.mul_comm (2 ^ (8 * n)),
      show (2 : Nat) ^ 8 = 256 from rfl, Nat.mod_mul]
    omega

theorem inWindow_iff {m : MemoryStore} {a : Word} {w : Width} :
    m.inWindow a w = true ↔ m.base ≤ a.toNat ∧ a.toNat + w.bytes ≤ m.base + m.size :=
  decide_eq_true_iff

/-- Settles O59: in the window the bytes written are those of the value (`read_writeBytes`), so they read as its low
bytes; outside it both operations test the window first. -/
theorem memoryStoreReadsBackWhatWasWritten : Obligations.MemoryStoreReadsBackWhatWasWritten := by
  intro m a w v hwf
  split
  next hin =>
    have hwin : m.inWindow a w = true := inWindow_iff.2 hin
    have hbytes : ∀ k < w.bytes, (m.cells.writeBytes a.toNat w.bytes v.toNat).read (a.toNat + k) =
        BitVec.ofNat 8 (v.toNat / 2 ^ (8 * (w.bytes - 1 - k))) := fun k hk => read_writeBytes hk hwf
    refine ⟨_, if_pos hwin, rfl, rfl, wf_writeBytes hwf, ?readBack, hbytes, fun b => read_writeBytes_outside hwf⟩
    rw [← readBytes_of_bytes hbytes]
    exact if_pos hwin
  next hout =>
    have hwin : ¬ m.inWindow a w = true := mt inWindow_iff.1 hout
    exact ⟨if_neg hwin, if_neg hwin⟩

end Sys2Proof.Machine
